-- ==== Sys2Proof/Word.lean ====
section
/-! DEFINITION. The word types of the IRTransceiver core (00_scope.md R9: `u32`, `Level`, `OptLevel`; 30_encoding.md R90: the frame). -/

namespace Sys2Proof

/-- An 8-bit field of a frame: an opcode, an instance handle or a pin identifier (R91, R34). -/
abbrev Byte := BitVec 8

/-- `u32`: a clock tick count, a duration, a cursor, a length or a word address (R9, R10). Arithmetic wraps modulo 2^32 and
comparison is unsigned, as `+`, `-`, `<` and `≤` of `BitVec` are. -/
abbrev Word := BitVec 32

/-- A command frame F of 128 bits (R90). -/
abbrev Frame := BitVec 128

/-- The level of a line, 0 or 1 (R9). -/
abbrev Level := BitVec 1

end Sys2Proof
end

