-- ==== Sys2Proof/Syntax.lean ====
section
/-! DEFINITION. The commands (30_encoding.md R93), the fields of a frame (R91), the response (R96), and the steps of the other
agents as a scenario lists them (R99). -/

namespace Sys2Proof

/-- One constructor per row of spec/opcode_table.json (R93). Each operand has the width of its field, so a command cannot be
ill-formed; what can be ill-formed is a frame (WellFormed.lean). -/
inductive Instr where
  /-- CREATE, OP 0x01 (R210): `create tx=<P0>, rx=<P1>, txbuf=<A>, rxbuf=<B>, cap=<C>`. -/
  | create (txPin rxPin : Byte) (txBuf rxBuf rxCapacity : Word)
  /-- ENABLE, OP 0x02 (R220). -/
  | enable (h : Byte)
  /-- DISABLE, OP 0x03 (R222). -/
  | disable (h : Byte)
  /-- ENABLED, OP 0x04 (R224). -/
  | enabled (h : Byte)
  /-- TX_START, OP 0x05 (R140): `tx_start h=<H>, len=<A>`. -/
  | txStart (h : Byte) (length : Word)
  /-- TX_CURSOR, OP 0x06 (R142). -/
  | txCursor (h : Byte)
  /-- RX_CURSOR, OP 0x07 (R182). -/
  | rxCursor (h : Byte)
  /-- RX_RESET, OP 0x08 (R180). -/
  | rxReset (h : Byte)
deriving DecidableEq, Repr

/-- The seven fields of a frame, in the order of R91. -/
structure Fields where
  op : Byte
  h : Byte
  p0 : Byte
  p1 : Byte
  a : Word
  b : Word
  c : Word
deriving DecidableEq, Repr

/-- Why a frame matches no row of the opcode table (R94, R252). -/
inductive Reject where
  /-- The opcode is 0x00 or 0x09..0xFF. -/
  | illegalOpcode
  /-- The opcode is defined and a field the command does not use is not zero. -/
  | reservedField
deriving DecidableEq, Repr

/-- The status S of a response (R250). -/
inductive Status where
  | ok
  | illegalCommand
  | badHandle
  | capacityExhausted
  | badBuffer
  | rxCapacityInvalid
  | txLengthInvalid
deriving DecidableEq, Repr

/-- The response `(S, V)` that completes a command (R96). -/
structure Response where
  status : Status
  value : Word
deriving DecidableEq, Repr

/-- A buffer descriptor (base, length) of BUFTAB, in words (R61). -/
structure Descriptor where
  base : Word
  length : Word
deriving DecidableEq, Repr

/-- How the environment supplies the receive line's level at a sample (R29, R99). -/
inductive RxInput where
  /-- A level of the environment's own choice: `in=0` or `in=1`. -/
  | line (lvl : Level)
  /-- The instance's own transmit level as it stands at the sample, with `none` read as the scenario's idle level.
  `in=loop` of R99 is `loopback 0`. -/
  | loopback (idle : Level)
deriving DecidableEq, Repr

/-- One step of one agent: a command of the host, or a line of the scenario notation (R99). -/
inductive Event where
  /-- The host delivers a frame (R90). -/
  | command (f : Frame)
  /-- One tick of the clock agent (R122); `tick n` is n of these. -/
  | tick
  /-- One step of instance h's loop engine (R231), with the receive-line sample the environment gives it. -/
  | iter (h : Nat) (input : RxInput)
  /-- A host write of word v to SHM address a (R67). -/
  | poke (a v : Word)
  /-- The buffer allocator gives a handle a descriptor, or takes it away (R25, R61, R294 step 1; log 10). -/
  | describe (handle : Word) (d : Option Descriptor)
deriving DecidableEq, Repr, Inhabited

end Sys2Proof
end

