-- ==== Sys2Proof/WellFormed.lean ====
section
/-! DEFINITION. Well-formed frames, field by field, from the table of 30_encoding.md R93: a defined opcode, and zero in every
field the command does not use (R91, R94). Written apart from the decoder's masks and matches, so that the two can be compared. -/

namespace Sys2Proof

/-- OP is one of the eight defined opcodes 0x01..0x08 (R93). -/
def Fields.opcodeDefined (x : Fields) : Bool :=
  1 ≤ x.op && x.op ≤ 8

/-- Column "uses H" of R93: every command but CREATE. -/
def Fields.usesH (x : Fields) : Bool :=
  x.op != 1

/-- Column "uses P0, P1" of R93: CREATE only. -/
def Fields.usesPins (x : Fields) : Bool :=
  x.op == 1

/-- Column "uses A" of R93: CREATE and TX_START. -/
def Fields.usesA (x : Fields) : Bool :=
  x.op == 1 || x.op == 5

/-- Columns "uses B" and "uses C" of R93: CREATE only. -/
def Fields.usesBC (x : Fields) : Bool :=
  x.op == 1

/-- Every field the command does not use is zero (R91). -/
def Fields.reservedZero (x : Fields) : Bool :=
  (x.usesH || x.h == 0) && (x.usesPins || (x.p0 == 0 && x.p1 == 0)) && (x.usesA || x.a == 0) &&
    (x.usesBC || (x.b == 0 && x.c == 0))

/-- The frame is one that R94 decodes. -/
def Fields.wellFormed (x : Fields) : Bool :=
  x.opcodeDefined && x.reservedZero

end Sys2Proof
end

