-- ==== Sys2Proof/Decode.lean ====
section
/-! DEFINITION. The decoder and the encoder of command frames (30_encoding.md R90 to R95; spec/opcode_table.json), and the two
words of a response (R96). The decoder is total on all 2^128 frames. -/

namespace Sys2Proof

/-- F = W3 << 96 | W2 << 64 | W1 << 32 | W0 (R90). -/
def frameOfWords (w0 w1 w2 w3 : Word) : Frame :=
  w3.setWidth 128 <<< 96 ||| w2.setWidth 128 <<< 64 ||| w1.setWidth 128 <<< 32 ||| w0.setWidth 128

/-- W0, with OP, H, P0 and P1 at the bit places of R91. -/
def wordZero (op h p0 p1 : Byte) : Word :=
  p1.setWidth 32 <<< 24 ||| p0.setWidth 32 <<< 16 ||| h.setWidth 32 <<< 8 ||| op.setWidth 32

/-- The fields of a frame, at the bit places of R91. -/
def fieldsOf (f : Frame) : Fields where
  op := f.extractLsb' 0 8
  h := f.extractLsb' 8 8
  p0 := f.extractLsb' 16 8
  p1 := f.extractLsb' 24 8
  a := f.extractLsb' 32 32
  b := f.extractLsb' 64 32
  c := f.extractLsb' 96 32

/-- The frame with the given fields at the bit places of R91. -/
def frameOf (x : Fields) : Frame :=
  frameOfWords (wordZero x.op x.h x.p0 x.p1) x.a x.b x.c

/-- A row of the opcode table as (mask, match) (R94). -/
abbrev OpcodeRow := Frame × Frame

/-- The rows of spec/opcode_table.json. -/
def createRow : OpcodeRow := (0x0000000000000000000000000000FFFF, 0x00000000000000000000000000000001)
def enableRow : OpcodeRow := (0xFFFFFFFFFFFFFFFFFFFFFFFFFFFF00FF, 0x00000000000000000000000000000002)
def disableRow : OpcodeRow := (0xFFFFFFFFFFFFFFFFFFFFFFFFFFFF00FF, 0x00000000000000000000000000000003)
def enabledRow : OpcodeRow := (0xFFFFFFFFFFFFFFFFFFFFFFFFFFFF00FF, 0x00000000000000000000000000000004)
def txStartRow : OpcodeRow := (0xFFFFFFFFFFFFFFFF00000000FFFF00FF, 0x00000000000000000000000000000005)
def txCursorRow : OpcodeRow := (0xFFFFFFFFFFFFFFFFFFFFFFFFFFFF00FF, 0x00000000000000000000000000000006)
def rxCursorRow : OpcodeRow := (0xFFFFFFFFFFFFFFFFFFFFFFFFFFFF00FF, 0x00000000000000000000000000000007)
def rxResetRow : OpcodeRow := (0xFFFFFFFFFFFFFFFFFFFFFFFFFFFF00FF, 0x00000000000000000000000000000008)

/-- All rows, in the table's order. -/
def opcodeRows : List OpcodeRow :=
  [createRow, enableRow, disableRow, enabledRow, txStartRow, txCursorRow, rxCursorRow, rxResetRow]

/-- `F & mask(X) = match(X)` (R94). -/
def rowMatches (row : OpcodeRow) (f : Frame) : Bool :=
  f &&& row.1 == row.2

/-- The command a frame decodes to, or none where it matches no row (R94). -/
def decode (f : Frame) : Option Instr :=
  let x := fieldsOf f
  if rowMatches createRow f then some (.create x.p0 x.p1 x.a x.b x.c)
  else if rowMatches enableRow f then some (.enable x.h)
  else if rowMatches disableRow f then some (.disable x.h)
  else if rowMatches enabledRow f then some (.enabled x.h)
  else if rowMatches txStartRow f then some (.txStart x.h x.a)
  else if rowMatches txCursorRow f then some (.txCursor x.h)
  else if rowMatches rxCursorRow f then some (.rxCursor x.h)
  else if rowMatches rxResetRow f then some (.rxReset x.h)
  else none

/-- Why a frame that matches no row matches none (R94, R252). -/
def rejection (f : Frame) : Reject :=
  if (fieldsOf f).opcodeDefined then .reservedField else .illegalOpcode

/-- The decoder with its rejections named. -/
def decodeOrReject (f : Frame) : Except Reject Instr :=
  match decode f with
  | some i => .ok i
  | none => .error (rejection f)

/-- The fields that stand for a command; a field it does not use is zero (R91, R93). -/
def instrFields : Instr → Fields
  | .create txPin rxPin txBuf rxBuf rxCapacity => ⟨0x01, 0, txPin, rxPin, txBuf, rxBuf, rxCapacity⟩
  | .enable h => ⟨0x02, h, 0, 0, 0, 0, 0⟩
  | .disable h => ⟨0x03, h, 0, 0, 0, 0, 0⟩
  | .enabled h => ⟨0x04, h, 0, 0, 0, 0, 0⟩
  | .txStart h length => ⟨0x05, h, 0, 0, length, 0, 0⟩
  | .txCursor h => ⟨0x06, h, 0, 0, 0, 0, 0⟩
  | .rxCursor h => ⟨0x07, h, 0, 0, 0, 0, 0⟩
  | .rxReset h => ⟨0x08, h, 0, 0, 0, 0, 0⟩

/-- The one frame a command assembles to (R100). -/
def encode (i : Instr) : Frame :=
  frameOf (instrFields i)

/-- The frame whose low `nbits` bits are those of `w`, numbered as the table numbers them (bit 0 is the least significant bit
of W0), with every bit above zero. -/
def tableFrame (nbits w : Nat) : Frame :=
  BitVec.ofNat 128 (w % 2 ^ nbits)

/-- What the decoder reads from the frame with bits `w`. -/
def decodeTableWord (nbits w : Nat) : Option Instr :=
  decode (tableFrame nbits w)

/-- The number of a status (R250). -/
def statusCode : Status → Word
  | .ok => 0
  | .illegalCommand => 1
  | .badHandle => 2
  | .capacityExhausted => 3
  | .badBuffer => 4
  | .rxCapacityInvalid => 5
  | .txLengthInvalid => 6

/-- The two words S and V of a response (R96). -/
def responseWords (r : Response) : Word × Word :=
  (statusCode r.status, r.value)

end Sys2Proof
end

