-- ==== Sys2Proof/Config.lean ====
section
/-! DEFINITION. The parameters and draws of 00_scope.md R7. None has a body: what the model proves holds for every choice of
them. A parameter of the spec that the machine's collaborators may also change while it runs (BUFTAB, SHM) is plain data in
State, and only its initial contents stand here. -/

namespace Sys2Proof

/-- MAX_INSTANCES less one; the range 1..256 of R7 is 0..255 here (D6, log 11). -/
opaque Config.maxInstancesLessOne : Fin 256

/-- MAX_INSTANCES, a parameter in 1..256 (R7, D6). -/
def Config.maxInstances : Nat := Config.maxInstancesLessOne.val + 1

/-- CLK_EPOCH, the counter value when the clock starts: a draw. The clock starts at most once in a run (R21), so one
constant is one draw (R121, D17, log 5). -/
opaque Config.clkEpoch : Word

/-- RX_LAST_INIT, the initial last-edge time of a new instance: a draw, one per CREATE. Handle h is created at most once in
a run (R211), so a value per handle is a draw per CREATE (R24, D24, log 6). -/
opaque Config.rxLastInit : Nat → Word

/-- SHM0, the initial contents of the shared memory by word address: a parameter (R60, R290, log 8). -/
opaque Config.shm0 : Word → Word

/-- The buffer descriptor table as it stands at power-on: a parameter (R61, R290, log 10). -/
opaque Config.bufTab : List (Word × Descriptor)

/-- The order in which the agents step where no scenario fixes it, with every choice an agent has (which frame, which level):
free (R233, log 2). -/
opaque Config.freeEvent : Nat → Event

/-- SHM_BYTE_ORDER: at each of the four byte places of a word, which of its bytes an external reader sees. An OPEN parameter with
no range in the spec, which no rule of the core reads (R65, D12). DESIGN CHOICE: it ranges over all 24 orders of the four bytes,
the mixed ones included, and is the same for every word (safe, log 9). -/
opaque Config.shmByteOrder : Equiv.Perm (Fin 4)

/-- The physical line a pin identifier resolves to, lines being numbered. The spec leaves this to the pin collaborator (R5, R34), and
no rule of the core reads it. DESIGN CHOICE: the resolution is any function, so two identifiers may name one line, and it stays
the same throughout a run (safe, log 24). -/
opaque Config.lineOfPin : Byte → Nat

/-- F_CLK, the nominal counter frequency in ticks per second: a parameter that no rule reads (R7, R127, log 12). -/
opaque Config.fClk : Nat

/-- POLL_MAX, the largest number of ticks between two consecutive samples of a running loop: a parameter of timing
properties only (R7, R233, log 12). -/
opaque Config.pollMax : Nat

end Sys2Proof
end

