-- ==== Sys2Proof/Machine/State.lean ====
section
/-! DEFINITION. The state of the machine (10_state.md R20 to R31), its reasons to stop, and the power-on state (70_reset_and_hazards.md R290). -/

namespace Sys2Proof.Machine

/-- The shared memory as the words that differ from SHM0: (word address, word) pairs, addresses strictly rising, none equal to
what an unlisted address reads as (R60; `Memory.wf` in Ops.lean; log 8). -/
abbrev Memory := List (Nat × Word)

/-- The record `I[h]` of a created instance (R24). -/
structure Instance where
  /-- Pin identifier of the transmit line; constant. -/
  txPin : Byte
  /-- Pin identifier of the receive line; constant. -/
  rxPin : Byte
  /-- Word address of tx buffer element 0; constant. -/
  txBase : Word
  /-- The tx buffer's true size in elements; constant. -/
  txSize : Word
  /-- Word address of rx buffer element 0; constant. -/
  rxBase : Word
  /-- Ring capacity; constant. -/
  rxCap : Word
  /-- Queued transmission size. -/
  txLen : Word
  /-- Transmit cursor. -/
  txCur : Word
  /-- The clock value when the next transition is due. -/
  txTarget : Word
  /-- The wrap guard; non-zero while a target that wrapped past 2^32 is pending (R27). -/
  txGuard : Word
  /-- The level the core drives on the transmit line; none before the first transition (R28). -/
  txLevel : Option Level
  /-- Receive cursor. -/
  rxCur : Word
  /-- Last edge time. -/
  rxLast : Word
  /-- The host's request flag. -/
  running : Bool
  /-- Whether the loop engine is still executing (R31). -/
  loopActive : Bool
deriving DecidableEq, Repr

/-- The whole machine. The instance records stand in creation order, so handle h is index h and `G.n_inst` is their number
(R211; log 13). -/
structure State where
  /-- `G.CLK`. -/
  clk : Word
  /-- `G.clk_started`. -/
  clkStarted : Bool
  /-- The ghost `G.U`, which no step of the core reads (R22). -/
  ticks : Nat
  /-- `I[0]`, `I[1]`, ... -/
  insts : List Instance
  /-- `G.fatal`. -/
  fatal : Bool
  /-- `SHM`. -/
  shm : Memory
  /-- `BUFTAB`: the first entry with a handle is that handle's descriptor (R61). -/
  bufTab : List (Word × Descriptor)
  /-- The response the last command completed with; none before the first command (R96; log 4). -/
  response : Option Response
  /-- The model's own: the next steps of the total order, where they are already fixed (R70, R99; log 1). -/
  pending : List Event
  /-- The model's own: how many steps have been taken from the free order (log 2). -/
  turn : Nat
deriving DecidableEq, Repr

/-- No event stops the machine: an error is a status in a response (R251, R261), and internal steps never fail (R253). So there
is no fault, and nothing raises one: safe (log 18). -/
inductive Fault where
deriving DecidableEq, Repr

/-- Every command has its meaning and every frame has its response (R94, R96), so no step of this machine answers with a refusal. -/
inductive Refusal where
  /-- Raised by an arm of `exec` for a command without a meaning: no arm does. Safe: the model stops. -/
  | notModelled (mnemonic : String)
deriving DecidableEq, Repr

/-- The power-on state (R290): no instance, clock not started, no fatal error, SHM = SHM0, BUFTAB as given.
`clk` is unspecified by the spec and 0 here (DESIGN CHOICE, log 7); the model's own fields are empty (log 22). -/
def State.reset : State where
  clk := 0
  clkStarted := false
  ticks := 0
  insts := []
  fatal := false
  shm := []
  bufTab := Config.bufTab
  response := none
  pending := []
  turn := 0

end Sys2Proof.Machine
end

