-- ==== Sys2Proof/Machine/Ops.lean ====
section
/-! DEFINITION. The named operations over memory, instance records, pins and responses (00_scope.md R11), and raising an error
(60_exceptions.md R251). -/

namespace Sys2Proof.Machine

/-- The listed word at a key, if there is one. -/
def Memory.find (k : Nat) : Memory → Option Word
  | [] => none
  | (k', v) :: m => if k = k' then some v else Memory.find k m

/-- `MemRead(a, 1)`: the last word written to `a`, or SHM0 at `a` (R11, R70). Every address exists (R60). -/
def Memory.read (m : Memory) (a : Word) : Word :=
  (m.find a.toNat).getD (Config.shm0 a)

/-- List a word at a key, keeping the keys in rising order. -/
def Memory.insert (k : Nat) (v : Word) : Memory → Memory
  | [] => [(k, v)]
  | (k', v') :: m =>
    if k < k' then (k, v) :: (k', v') :: m
    else if k = k' then (k, v) :: m
    else (k', v') :: Memory.insert k v m

/-- Unlist a key. -/
def Memory.erase (k : Nat) : Memory → Memory
  | [] => []
  | (k', v') :: m => if k = k' then Memory.erase k m else (k', v') :: Memory.erase k m

/-- `MemWrite(a, 1, v)` (R11). Writing what an unlisted address reads as unlists it, so equal memories are equal lists. -/
def Memory.write (m : Memory) (a v : Word) : Memory :=
  if v = Config.shm0 a then m.erase a.toNat else m.insert a.toNat v

/-- The canonical form of a memory: addresses strictly rising and below 2^32, no word listed that SHM0 gives. -/
abbrev Memory.wf (m : Memory) : Prop :=
  m.Pairwise (fun c d => c.1 < d.1) ∧ ∀ c ∈ m, c.1 < 2 ^ 32 ∧ c.2 ≠ Config.shm0 (BitVec.ofNat 32 c.1)

/-- What a byte-addressed external reader sees at byte place k (0 to 3) of a word, in the order SHM_BYTE_ORDER (R65, log 9). Byte 0
of a word is its least significant. No rule of the core uses it. -/
def byteSeen (w : Word) (k : Fin 4) : Byte :=
  w.extractLsb' (8 * (Config.shmByteOrder k).val) 8

/-- `G.n_inst` (R20). -/
def State.nInst (s : State) : Nat :=
  s.insts.length

/-- `I[h] <- i`. -/
def State.setInst (s : State) (h : Nat) (i : Instance) : State :=
  { s with insts := s.insts.set h i }

/-- `MemWrite` on the machine's SHM; also a host write of one word (R67). -/
def State.memWrite (s : State) (a v : Word) : State :=
  { s with shm := s.shm.write a v }

/-- A host read of one word, which changes nothing (R67). -/
def State.hostRead (s : State) (a : Word) : Word :=
  s.shm.read a

/-- `respond(status, value)`: complete the command with a response (R11, R96). -/
def respond (status : Status) (value : Word) (s : State) : State :=
  { s with response := some ⟨status, value⟩ }

/-- What an error writes besides its response: nothing, except that CAPACITY_EXHAUSTED sets `G.fatal` (R251, R257). -/
def errorEffect (e : Status) (s : State) : State :=
  match e with
  | .capacityExhausted => { s with fatal := true }
  | _ => s

/-- `raise E`: the core's one exception (R261). It saves nothing, changes no mode and transfers control nowhere; the command
completes with status E and value 0 (R11, R251). There is no return from it: the next command is decoded like any other (R262). -/
def raise (e : Status) (s : State) : State :=
  respond e 0 (errorEffect e s)

/-- `Pin.write(h, lvl)` on an instance record: the level the core drives from now on (R11, R28). -/
def pinWrite (lvl : Level) (i : Instance) : Instance :=
  { i with txLevel := some lvl }

/-- `Pin.sample(h)`: the receive line's level as the environment gives it (R11, R29). -/
def pinSample (i : Instance) : RxInput → Level
  | .line lvl => lvl
  | .loopback idle => i.txLevel.getD idle

/-- The next step of the total order: the head of `pending`, or the free order's next choice (R70, R233). -/
def nextEvent (s : State) : Event :=
  match s.pending with
  | e :: _ => e
  | [] => Config.freeEvent s.turn

/-- The state once that choice has been taken. -/
def takeEvent (s : State) : State :=
  match s.pending with
  | _ :: rest => { s with pending := rest }
  | [] => { s with turn := s.turn + 1 }

end Sys2Proof.Machine
end

