-- ==== Sys2Proof/Machine/Clock.lean ====
section
/-! DEFINITION. The shared free-running counter (40_clock.md). -/

namespace Sys2Proof.Machine

/-- CLOCK_START (R121): once, at the draw CLK_EPOCH; nothing where the clock has started. -/
def clockStart (s : State) : State :=
  if s.clkStarted then s else { s with clk := Config.clkEpoch, clkStarted := true }

/-- CLOCK_TICK (R122), with the ghost count (R22). The clock agent does not step before the start: the state stays (log 3). -/
def clockTick (s : State) : State :=
  if s.clkStarted then { s with clk := s.clk + 1, ticks := s.ticks + 1 } else s

/-- CLOCK_READ, `now()` (R123). -/
def clockRead (s : State) : Word :=
  s.clk

end Sys2Proof.Machine
end

