-- ==== Sys2Proof/Machine/Flags.lean ====
section
/-! DEFINITION. The core has no condition codes (41_transmit.md section 1, 10_state.md R33). Here are the tests its two state
machines make, all unsigned (00_scope.md R10), and the parity of a cursor. -/

namespace Sys2Proof.Machine

/-- Bit 0 of a cursor, `cursor & 1`. -/
def parity (cursor : Word) : Level :=
  cursor.extractLsb' 0 1

/-- The instance is transmit-idle (R26). -/
def txIdle (i : Instance) : Bool :=
  i.txCur == i.txLen

/-- The instance is transmit-armed (R26). -/
def txArmed (i : Instance) : Bool :=
  i.txCur == 0 && 0 < i.txLen

/-- The test of TX step 2: the counter has wrapped past zero (R152, C7). -/
def wrapSeen (t : Word) (i : Instance) : Bool :=
  t < i.txGuard

/-- The test of TX step 3: this is the instant to fire a transition (R153). -/
def txDue (t : Word) (i : Instance) : Bool :=
  i.txGuard == 0 && i.txTarget ≤ t

/-- No wrap occurred during the advance of the target (R157). -/
def noWrap (i : Instance) : Bool :=
  i.txGuard ≤ i.txTarget

/-- The level of the transition that fires at a cursor: 1 if even, 0 if odd (R154). -/
def levelAt (cursor : Word) : Level :=
  if parity cursor = 0 then 1 else 0

/-- `(rx_cur & 1) XOR lvl = 1`: an edge since the last check (R185). -/
def edgeSeen (i : Instance) (lvl : Level) : Bool :=
  parity i.rxCur ^^^ lvl == 1

end Sys2Proof.Machine
end

