-- ==== Sys2Proof/Machine/Operands.lean ====
section
/-! DEFINITION. Operand forms: the handle of a command (30_encoding.md R92), buffer handles (20_memory.md R61), and the one
addressing form base + cursor (41_transmit.md R156, 42_receive.md R184). -/

namespace Sys2Proof.Machine

/-- `zext_32(H)` (R92). -/
def handleOf (h : Byte) : Word :=
  h.setWidth 32

/-- Run a command on the instance its handle names, or raise BAD_HANDLE where `zext_32(H) >= G.n_inst` (R254). -/
def withInstance (h : Byte) (s : State) (act : Instance → State) : State :=
  match s.insts[(handleOf h).toNat]? with
  | none => raise .badHandle s
  | some i => act i

/-- `BUFTAB(x)`, or none where the table does not map x (R61). -/
def bufLookup (s : State) (x : Word) : Option Descriptor :=
  s.bufTab.lookup x

/-- A descriptor none of whose elements' addresses wraps: `int(base) + length <= 2^32` (R61). -/
def descriptorValid (d : Descriptor) : Bool :=
  d.base.toNat + d.length.toNat ≤ 2 ^ 32

/-- `BUFTAB(x)` where `valid(BUFTAB, x)` holds, else none (R210, R255). -/
def validBuffer (s : State) (x : Word) : Option Descriptor :=
  (bufLookup s x).filter descriptorValid

/-- BUFTAB with one handle mapped to a descriptor, or to none (R25, R294). -/
def bufTabUpdate (handle : Word) (d : Option Descriptor) (tab : List (Word × Descriptor)) : List (Word × Descriptor) :=
  let others := tab.filter (fun e => e.1 != handle)
  match d with
  | none => others
  | some d => (handle, d) :: others

/-- An acceptable `rx_capacity` for an rx buffer of this length: positive, even, no larger than the buffer (R256). -/
def rxCapacityOk (c length : Word) : Bool :=
  c != 0 && c.extractLsb' 0 1 == 0 && c ≤ length

/-- The address of the tx element at the cursor (R156). -/
def txElemAddr (i : Instance) : Word :=
  i.txBase + i.txCur

/-- The address of the rx element at the cursor (R184). -/
def rxElemAddr (i : Instance) : Word :=
  i.rxBase + i.rxCur

/-- `(rx_cur + 1) mod rx_cap` (R184; log 14 for a capacity of 0, which no reachable state has). -/
def rxCurNext (i : Instance) : Word :=
  (i.rxCur + 1) % i.rxCap

end Sys2Proof.Machine
end

