-- ==== Sys2Proof/Machine/Receive.lean ====
section
/-! DEFINITION. The receive edge capture state machine (42_receive.md): RX_RESET, RX_CURSOR and the RX step. -/

namespace Sys2Proof.Machine

/-- What RX_RESET writes: the cursor, and nothing else (R181). -/
def rxRewind (i : Instance) : Instance :=
  { i with rxCur := 0 }

/-- RX_RESET (R180). -/
def execRxReset (h : Byte) (s : State) : Host.Outcome State Fault Refusal :=
  .next (withInstance h s fun i => respond .ok 0 (s.setInst (handleOf h).toNat (rxRewind i)))

/-- RX_CURSOR (R182). -/
def execRxCursor (h : Byte) (s : State) : Host.Outcome State Fault Refusal :=
  .next (withInstance h s fun i => respond .ok i.rxCur s)

/-- The instance after a record at clock sample t (R184). -/
def rxAdvance (t : Word) (i : Instance) : Instance :=
  { i with rxCur := rxCurNext i, rxLast := t }

/-- RX_STEP at clock sample t and receive level lvl (R183): the instance and the memory after it. -/
def rxStep (t : Word) (lvl : Level) (i : Instance) (m : Memory) : Instance × Memory :=
  if edgeSeen i lvl then (rxAdvance t i, m.write (rxElemAddr i) (t - i.rxLast)) else (i, m)

end Sys2Proof.Machine
end

