-- ==== Sys2Proof/Machine/Transmit.lean ====
section
/-! DEFINITION. The transmit interval state machine (41_transmit.md): TX_START, TX_CURSOR and the TX step. -/

namespace Sys2Proof.Machine

/-- What an accepted TX_START writes: the length and the cursor, and nothing else (R140, R141). -/
def txRestart (length : Word) (i : Instance) : Instance :=
  { i with txLen := length, txCur := 0 }

/-- TX_START (R140). -/
def execTxStart (h : Byte) (length : Word) (s : State) : Host.Outcome State Fault Refusal :=
  .next (withInstance h s fun i =>
    if i.txSize < length then raise .txLengthInvalid s
    else respond .ok 0 (s.setInst (handleOf h).toNat (txRestart length i)))

/-- TX_CURSOR (R142). -/
def execTxCursor (h : Byte) (s : State) : Host.Outcome State Fault Refusal :=
  .next (withInstance h s fun i => respond .ok i.txCur s)

/-- TX step 1, arming (R151). -/
def txArm (t : Word) (i : Instance) : Instance :=
  if i.txCur = 0 then { i with txTarget := t, txGuard := 0 } else i

/-- TX step 2, wrap detection (R152). -/
def txDetectWrap (t : Word) (i : Instance) : Instance :=
  if wrapSeen t i then { i with txGuard := 0 } else i

/-- Fire: drive the level (R154), save the guard (R155), advance by the element d (R156). -/
def txAdvance (d : Word) (i : Instance) : Instance :=
  { pinWrite (levelAt i.txCur) i with
    txGuard := i.txTarget
    txTarget := i.txTarget + d
    txCur := i.txCur + 1 }

/-- Fire: clear the guard where the advance did not wrap (R157). -/
def txClearGuard (i : Instance) : Instance :=
  if noWrap i then { i with txGuard := 0 } else i

/-- TX step 3, one transition (R154 to R157); the element is read at this moment (R74). -/
def txFire (m : Memory) (i : Instance) : Instance :=
  txClearGuard (txAdvance (m.read (txElemAddr i)) i)

/-- The instance as TX step 3 finds it. -/
def txReady (t : Word) (i : Instance) : Instance :=
  txDetectWrap t (txArm t i)

/-- TX_STEP at clock sample t (R150). -/
def txStep (m : Memory) (t : Word) (i : Instance) : Instance :=
  if txIdle i then i
  else if txDue t (txReady t i) then txFire m (txReady t i)
  else txReady t i

end Sys2Proof.Machine
end

