-- ==== Sys2Proof/Machine/Lifecycle.lean ====
section
/-! DEFINITION. Instance lifecycle and run loop (43_lifecycle.md): CREATE, ENABLE, DISABLE, ENABLED and the loop step. -/

namespace Sys2Proof.Machine

/-- The record CREATE gives handle h (R24, R210). -/
def newInstance (h : Nat) (txPin rxPin : Byte) (tx rx : Descriptor) (rxCapacity : Word) : Instance where
  txPin := txPin
  rxPin := rxPin
  txBase := tx.base
  txSize := tx.length
  rxBase := rx.base
  rxCap := rxCapacity
  txLen := 0
  txCur := 0
  txTarget := 0
  txGuard := 0
  txLevel := none
  rxCur := 0
  rxLast := Config.rxLastInit h
  running := false
  loopActive := false

/-- `I[G.n_inst] <- i; G.n_inst <- G.n_inst + 1` (R210, R211). -/
def addInstance (i : Instance) (s : State) : State :=
  { s with insts := s.insts ++ [i] }

/-- CREATE's checks in order, and its effect (R210, R259). -/
def createCommand (txPin rxPin : Byte) (txBuf rxBuf rxCapacity : Word) (s : State) : State :=
  if s.nInst = Config.maxInstances then raise .capacityExhausted s
  else match validBuffer s txBuf with
    | none => raise .badBuffer s
    | some tx => match validBuffer s rxBuf with
      | none => raise .badBuffer s
      | some rx =>
        if rxCapacityOk rxCapacity rx.length then
          respond .ok (BitVec.ofNat 32 s.nInst)
            (clockStart (addInstance (newInstance s.nInst txPin rxPin tx rx rxCapacity) s))
        else raise .rxCapacityInvalid s

/-- CREATE (R210). -/
def execCreate (txPin rxPin : Byte) (txBuf rxBuf rxCapacity : Word) (s : State) : Host.Outcome State Fault Refusal :=
  .next (createCommand txPin rxPin txBuf rxBuf rxCapacity s)

/-- What ENABLE writes: both flags, and only where the instance is not running (R220, R221). -/
def startLoop (i : Instance) : Instance :=
  if i.running then i else { i with running := true, loopActive := true }

/-- ENABLE (R220). -/
def execEnable (h : Byte) (s : State) : Host.Outcome State Fault Refusal :=
  .next (withInstance h s fun i => respond .ok 0 (s.setInst (handleOf h).toNat (startLoop i)))

/-- What DISABLE writes (R222). -/
def requestStop (i : Instance) : Instance :=
  { i with running := false }

/-- DISABLE (R222). -/
def execDisable (h : Byte) (s : State) : Host.Outcome State Fault Refusal :=
  .next (withInstance h s fun i => respond .ok 0 (s.setInst (handleOf h).toNat (requestStop i)))

/-- ENABLED (R224): reports `running`, not `loop_active`. -/
def execEnabled (h : Byte) (s : State) : Host.Outcome State Fault Refusal :=
  .next (withInstance h s fun i => respond .ok (if i.running then 1 else 0) s)

/-- The exit branch of LOOP_STEP: the loop returns (R231). -/
def loopExit (i : Instance) : Instance :=
  { i with loopActive := false }

/-- One iteration at the sample (t, lvl): the TX step, then the RX step (R231, R232). -/
def iteration (t : Word) (lvl : Level) (i : Instance) (m : Memory) : Instance × Memory :=
  rxStep t lvl (txStep m t i) m

/-- Put an instance and the memory back. -/
def storeIteration (h : Nat) (r : Instance × Memory) (s : State) : State :=
  { s.setInst h r.1 with shm := r.2 }

/-- LOOP_STEP(h) (R231). The engine is enabled only while `loop_active`; otherwise it takes no step and the state stays
(R230, log 3). The one sample (t, lvl) is taken before either step. -/
def loopStep (h : Nat) (input : RxInput) (s : State) : State :=
  match s.insts[h]? with
  | none => s
  | some i =>
    if i.loopActive then
      if i.running then storeIteration h (iteration (clockRead s) (pinSample i input) i s.shm) s
      else s.setInst h (loopExit i)
    else s

end Sys2Proof.Machine
end

