-- ==== Sys2Proof/Machine/Dispatch.lean ====
section
/-! DEFINITION. exec: one arm per command. -/

namespace Sys2Proof.Machine

def exec (i : Instr) (s : State) : Host.Outcome State Fault Refusal :=
  match i with
  | .create txPin rxPin txBuf rxBuf rxCapacity => Sys2Proof.Machine.execCreate txPin rxPin txBuf rxBuf rxCapacity s
  | .enable h => Sys2Proof.Machine.execEnable h s
  | .disable h => Sys2Proof.Machine.execDisable h s
  | .enabled h => Sys2Proof.Machine.execEnabled h s
  | .txStart h length => Sys2Proof.Machine.execTxStart h length s
  | .txCursor h => Sys2Proof.Machine.execTxCursor h s
  | .rxCursor h => Sys2Proof.Machine.execRxCursor h s
  | .rxReset h => Sys2Proof.Machine.execRxReset h s

end Sys2Proof.Machine
end

