-- ==== Sys2Proof/Machine/Agents.lean ====
section
/-! DEFINITION. The steps of the agents (00_scope.md R12, 30_encoding.md R99): each event is one atomic step. -/

namespace Sys2Proof.Machine

/-- A delivered frame: run the command it decodes to, or answer ILLEGAL_COMMAND and write nothing (R94, R252). -/
def performCommand (f : Frame) (s : State) : Host.Outcome State Fault Refusal :=
  match decode f with
  | some i => exec i s
  | none => .next (raise .illegalCommand s)

/-- One step of one agent. -/
def perform (e : Event) (s : State) : Host.Outcome State Fault Refusal :=
  match e with
  | .command f => performCommand f s
  | .tick => .next (clockTick s)
  | .iter h input => .next (loopStep h input s)
  | .poke a v => .next (s.memWrite a v)
  | .describe handle d => .next { s with bufTab := bufTabUpdate handle d s.bufTab }

/-- Deliver a frame next: it goes to the head of the order of steps (log 17). -/
def deliver (f : Frame) (s : State) : State :=
  { s with pending := .command f :: s.pending }

end Sys2Proof.Machine
end

