-- ==== Sys2Proof/Machine/Step.lean ====
section
/-! DEFINITION. One step of the machine: the next event of the total order (20_memory.md R70). -/

namespace Sys2Proof.Machine

/-- Take the next event and perform it. -/
def step (s : State) : Host.Outcome State Fault Refusal :=
  perform (nextEvent s) (takeEvent s)

/-- The state whose next step runs the command with the bits `w`. -/
def State.withFetchWord (s : State) (nbits w : Nat) : State :=
  deliver (tableFrame nbits w) s

end Sys2Proof.Machine
end

