-- ==== Sys2Proof/Safety.lean ====
section
/-! DEFINITION. The terms claims use: the invariants of 10_state.md R32, what a claim about a run takes as a premise (R257, R312,
R233), runs of samples through the transmit and the receive step, and the encoding of one command. -/

namespace Sys2Proof.Machine

/-! ### Invariants -/

/-- R32 items 1 to 5 and 7 for one instance record. -/
structure InstanceInv (i : Instance) : Prop where
  txCur_le : i.txCur ≤ i.txLen
  txLen_le : i.txLen ≤ i.txSize
  rxCur_lt : i.rxCur < i.rxCap
  rxCap_even : i.rxCap.toNat % 2 = 0
  rxCap_ge : 2 ≤ i.rxCap.toNat
  rxBuf_fits : i.rxBase.toNat + i.rxCap.toNat ≤ 2 ^ 32
  txBuf_fits : i.txBase.toNat + i.txSize.toNat ≤ 2 ^ 32
  active : i.running = true → i.loopActive = true

/-- R32 for the whole machine (items 6 and 8 here), with the canonical form of SHM. -/
structure Inv (s : State) : Prop where
  insts : ∀ i ∈ s.insts, InstanceInv i
  started : s.clkStarted = true ↔ 0 < s.nInst
  count : s.nInst ≤ Config.maxInstances
  memory : s.shm.wf

/-- A kept guard lies above the target it guards: the target wrapped (R27, R157). -/
def GuardInv (s : State) : Prop :=
  ∀ i ∈ s.insts, i.txGuard ≠ 0 → i.txTarget < i.txGuard

/-- `G.CLK = (CLK_EPOCH + G.U) mod 2^32` after the start, and no tick before it (R22, R122, R124). -/
def ClockLaw (s : State) : Prop :=
  (s.clkStarted = true → s.clk = Config.clkEpoch + BitVec.ofNat 32 s.ticks) ∧ (s.clkStarted = false → s.ticks = 0)

/-! ### Premises of claims about a run -/

/-- Every claim about a run takes this as a premise: no fatal error has been signalled (R257). -/
def NotFatal (s : State) : Prop :=
  s.fatal = false

/-- No two instances drive one line: the host is assumed not to do it (R312, D16, log 15). DESIGN CHOICE: a line is what the opaque
resolution of pin identifiers gives, so two instances with different identifiers may drive one line too (log 24). -/
def NoSharedTxLine (s : State) : Prop :=
  s.insts.Pairwise (fun i j => Config.lineOfPin i.txPin ≠ Config.lineOfPin j.txPin)

/-- The state after one step; every step of this machine has one. -/
def State.after (s : State) : State :=
  match step s with
  | .next t => t
  | .fault _ => s
  | .refused _ => s

/-- The state after n steps. -/
def State.trace (s : State) : Nat → State
  | 0 => s
  | n + 1 => (s.trace n).after

/-- Fairness of the clock on the run from s: once started it ticks infinitely often (R233, log 23). -/
def FairClock (s : State) : Prop :=
  ∀ n, (s.trace n).clkStarted = true → ∃ k, n ≤ k ∧ nextEvent (s.trace k) = .tick

/-- Fairness of the loop engines on the run from s: an engine that stays active takes infinitely many steps (R233, log 23). -/
def FairLoops (s : State) : Prop :=
  ∀ n h, (∀ k, n ≤ k → ∃ i, (s.trace k).insts[h]? = some i ∧ i.loopActive = true) →
    ∃ k input, n ≤ k ∧ nextEvent (s.trace k) = .iter h input

/-! ### Encoding of a command -/

/-- "Uses H": P0, P1, A, B and C are reserved, so zero (R93). -/
def onlyH (x : Fields) : Bool :=
  x.p0 == 0 && x.p1 == 0 && x.a == 0 && x.b == 0 && x.c == 0

/-- Every frame with this opcode decodes to the command `mk` makes of its fields where the reserved fields are zero, and is
otherwise answered with (ILLEGAL_COMMAND, 0), nothing being written (R94, R252). -/
def EncodesAs (op : Byte) (reservedZero : Fields → Bool) (mk : Fields → Instr) : Prop :=
  ∀ x : Fields, x.op = op →
    (reservedZero x = true → decode (frameOf x) = some (mk x)) ∧
    (reservedZero x = false →
      ∀ s : State, performCommand (frameOf x) s = .next { s with response := some ⟨.illegalCommand, 0⟩ })

/-- BAD_HANDLE (R254): where `zext_32(H) >= G.n_inst`, the command answers (BAD_HANDLE, 0) and writes nothing. -/
def AnswersBadHandle (mk : Byte → Instr) : Prop :=
  ∀ (h : Byte) (s : State), s.nInst ≤ h.toNat →
    exec (mk h) s = .next { s with response := some ⟨.badHandle, 0⟩ }

/-- `valid(BUFTAB, x)` with its descriptor (R61, R210). -/
def MapsTo (s : State) (x : Word) (d : Descriptor) : Prop :=
  s.bufTab.lookup x = some d ∧ d.base.toNat + d.length.toNat ≤ 2 ^ 32

/-- The statuses R250 lets a command end with, once it has decoded. -/
def statusesOf : Instr → List Status
  | .create .. => [.ok, .capacityExhausted, .badBuffer, .rxCapacityInvalid]
  | .txStart .. => [.ok, .badHandle, .txLengthInvalid]
  | .enable _ | .disable _ | .enabled _ | .txCursor _ | .rxCursor _ | .rxReset _ => [.ok, .badHandle]

/-! ### The transmit step over a run of samples -/

/-- The instance after TX steps at the given clock samples, SHM staying as it is. -/
def txRun (m : Memory) (i : Instance) : List Word → Instance
  | [] => i
  | t :: ts => txRun m (txStep m t i) ts

/-- Element k of the tx buffer, `d_k` (R160). -/
def txElem (m : Memory) (i : Instance) (k : Nat) : Word :=
  m.read (i.txBase + BitVec.ofNat 32 k)

/-- `S_k = d_0 + ... + d_(k-1)` as an unbounded integer (R160). -/
def txSum (m : Memory) (i : Instance) : Nat → Nat
  | 0 => 0
  | k + 1 => txSum m i k + (txElem m i k).toNat

/-- The instance after TX steps at samples c 0, ..., c j, where c gives the unwrapped clock value of each sample (R163). -/
def txAt (m : Memory) (i : Instance) (c : Nat → Nat) : Nat → Instance
  | 0 => txStep m (BitVec.ofNat 32 (c 0)) i
  | j + 1 => txStep m (BitVec.ofNat 32 (c (j + 1))) (txAt m i c j)

/-- `D_k = c(T0) + S_k`, where transition 0 fires at the first sample (R163). -/
def dueAt (m : Memory) (i : Instance) (c : Nat → Nat) (k : Nat) : Nat :=
  c 0 + txSum m i k

/-- The assumptions of the timing theorem R163 for a transmission of length N polled at most P ticks apart, on samples 0 to j. -/
structure PolledWithin (P N : Nat) (m : Memory) (i : Instance) (c : Nat → Nat) (j : Nat) : Prop where
  period : 0 < P
  forward : ∀ l < j, c l ≤ c (l + 1)
  spacing : ∀ l < j, c (l + 1) ≤ c l + P
  intervals : ∀ k, k + 1 < N → P ≤ (txElem m i k).toNat
  window : ∀ k, 1 ≤ k → k < N → dueAt m i c k % 2 ^ 32 + P ≤ 2 ^ 32
  guard : ∀ k, k + 1 < N → 2 ^ 32 ≤ dueAt m i c k % 2 ^ 32 + (txElem m i k).toNat → P ≤ dueAt m i c k % 2 ^ 32

/-- A transmission that began at sample t0 and has read the elements `ds` so far, one at each fire, stands on the absolute schedule
(R160): the target is t0 plus their sum modulo 2^32, and the line has the level of the last transition. -/
structure OnSchedule (t0 : Word) (ds : List Word) (i : Instance) : Prop where
  begun : ds ≠ []
  count : i.txCur.toNat = ds.length
  target : i.txTarget = ds.foldl (· + ·) t0
  level : i.txLevel = some (if ds.length % 2 = 1 then 1 else 0)

/-! ### The receive step over a run of samples -/

/-- The instance and SHM after RX steps at the given samples (clock, level). -/
def rxRun (r : Instance × Memory) : List (Word × Level) → Instance × Memory
  | [] => r
  | (t, lvl) :: ts => rxRun (rxStep t lvl r.1 r.2) ts

/-- The records those RX steps make, oldest first. -/
def rxLog (i : Instance) : List (Word × Level) → List Word
  | [] => []
  | (t, lvl) :: ts => if edgeSeen i lvl then (t - i.rxLast) :: rxLog (rxAdvance t i) ts else rxLog i ts

/-! ### Buffers -/

/-- Address a is one of `length` words from `base` (R61). -/
def wordIn (a base length : Word) : Prop :=
  base.toNat ≤ a.toNat ∧ a.toNat < base.toNat + length.toNat

/-- Neither instance's ring overlaps a buffer of the other (R71). -/
def BuffersApart (i j : Instance) : Prop :=
  ∀ a, ¬ (wordIn a i.rxBase i.rxCap ∧ wordIn a j.rxBase j.rxCap) ∧
    ¬ (wordIn a i.rxBase i.rxCap ∧ wordIn a j.txBase j.txSize) ∧
    ¬ (wordIn a i.txBase i.txSize ∧ wordIn a j.rxBase j.rxCap)

end Sys2Proof.Machine
end

