-- ==== Sys2Proof/Certificates/Slice0/Obligations.lean ====
section
/-! DEFINITION. What is claimed of the machine. -/

open Sys2Proof Sys2Proof.Machine

/-! ### Encoding (30_encoding.md) -/

/-- R100: every command assembles to one frame, and the decoder reads that command back from it, whatever its operands. -/
def Obligations.DecodeInvertsEncode : Prop :=
  ∀ i : Instr, decode (encode i) = some i

/-- R94, R100: a frame that decodes is the one frame its command assembles to, so no bit of it is ignored. -/
def Obligations.EncodeInvertsDecode : Prop :=
  ∀ (f : Frame) (i : Instr), decode f = some i → encode i = f

/-- R94: "No frame matches two rows." -/
def Obligations.FrameMatchesAtMostOneRow : Prop :=
  ∀ (f : Frame) (r₁ r₂ : OpcodeRow), r₁ ∈ opcodeRows → r₂ ∈ opcodeRows →
    rowMatches r₁ f = true → rowMatches r₂ f = true → r₁ = r₂

/-- R93, R94: a frame decodes exactly when its opcode is defined and every field its command does not use is zero; the rejection
names which of the two fails. -/
def Obligations.DecodesExactlyTheWellFormedFrames : Prop :=
  ∀ x : Fields,
    (x.wellFormed = true → ∃ i, decodeOrReject (frameOf x) = .ok i) ∧
    (x.opcodeDefined = false → decodeOrReject (frameOf x) = .error .illegalOpcode) ∧
    (x.opcodeDefined = true → x.reservedZero = false → decodeOrReject (frameOf x) = .error .reservedField)

/-- R101: the assembled frames of the spec's table decode to the commands they stand for, and its illegal frames to none. -/
def Obligations.ExampleFramesDecode : Prop :=
  decode (frameOfWords 0x04030001 0x00000000 0x00000001 0x00000010) = some (.create 3 4 0 1 16) ∧
  decode (frameOfWords 0x00000002 0 0 0) = some (.enable 0) ∧
  decode (frameOfWords 0x00000103 0 0 0) = some (.disable 1) ∧
  decode (frameOfWords 0x00000004 0 0 0) = some (.enabled 0) ∧
  decode (frameOfWords 0x00000005 0x00000004 0 0) = some (.txStart 0 4) ∧
  decode (frameOfWords 0x00000206 0 0 0) = some (.txCursor 2) ∧
  decode (frameOfWords 0x00000007 0 0 0) = some (.rxCursor 0) ∧
  decode (frameOfWords 0x00000008 0 0 0) = some (.rxReset 0) ∧
  decode (frameOfWords 0x00000000 0 0 0) = none ∧
  decode (frameOfWords 0x00000009 0 0 0) = none ∧
  decode (frameOfWords 0x00000002 0x00000001 0 0) = none ∧
  decode (frameOfWords 0x00000101 0 0 0) = none

/-! ### Steps (20_memory.md R70) -/

/-- A step whose next event is a frame that decodes to i runs exec i, on the state with that event taken (R94, log 1). -/
def Obligations.StepRunsTheDecodedCommand : Prop :=
  ∀ (s : State) (f : Frame) (rest : List Event) (i : Instr),
    s.pending = .command f :: rest → decode f = some i → step s = exec i { s with pending := rest }

/-- A step performs the head of the pending order, and where that is empty the free order's next choice (logs 1 and 2; R70, R233). -/
def Obligations.StepTakesTheNextEvent : Prop :=
  (∀ (s : State) (e : Event) (rest : List Event), s.pending = e :: rest →
    step s = perform e { s with pending := rest }) ∧
  (∀ s : State, s.pending = [] → step s = perform (Config.freeEvent s.turn) { s with turn := s.turn + 1 })

/-- R252: a frame that is not well-formed is answered with (ILLEGAL_COMMAND, 0), and nothing else is written. -/
def Obligations.IllegalFrameIsAnsweredAndWritesNothing : Prop :=
  ∀ (x : Fields) (s : State), x.wellFormed = false →
    performCommand (frameOf x) s = .next { s with response := some ⟨.illegalCommand, 0⟩ }

/-- R253, R96: no step stops the machine, whatever the state. -/
def Obligations.EveryStepHasANextState : Prop :=
  ∀ s : State, ∃ t, step s = .next t

/-! ### Commands -/

/-- CREATE (R210): its encoding, its four errors in the order of R259, and the instance it makes. RX_LAST_INIT and CLK_EPOCH are
whatever the draws give. -/
def Obligations.CreateMeaning : Prop :=
  EncodesAs 0x01 (fun x => x.h == 0) (fun x => .create x.p0 x.p1 x.a x.b x.c) ∧
  (∀ (p q : Byte) (a b c : Word) (s : State), s.nInst = Config.maxInstances →
    exec (.create p q a b c) s = .next { s with fatal := true, response := some ⟨.capacityExhausted, 0⟩ }) ∧
  (∀ (p q : Byte) (a b c : Word) (s : State), s.nInst ≠ Config.maxInstances →
    ((∀ d, ¬ MapsTo s a d) ∨ (∀ d, ¬ MapsTo s b d)) →
    exec (.create p q a b c) s = .next { s with response := some ⟨.badBuffer, 0⟩ }) ∧
  (∀ (p q : Byte) (a b c : Word) (s : State) (tx rx : Descriptor), s.nInst ≠ Config.maxInstances →
    MapsTo s a tx → MapsTo s b rx → (c = 0 ∨ c.toNat % 2 = 1 ∨ rx.length < c) →
    exec (.create p q a b c) s = .next { s with response := some ⟨.rxCapacityInvalid, 0⟩ }) ∧
  (∀ (p q : Byte) (a b c : Word) (s : State) (tx rx : Descriptor), s.nInst ≠ Config.maxInstances →
    MapsTo s a tx → MapsTo s b rx → c ≠ 0 → c.toNat % 2 = 0 → c ≤ rx.length →
    exec (.create p q a b c) s = .next { s with
      insts := s.insts ++ [⟨p, q, tx.base, tx.length, rx.base, c, 0, 0, 0, 0, none, 0, Config.rxLastInit s.nInst, false, false⟩]
      clk := if s.clkStarted then s.clk else Config.clkEpoch
      clkStarted := true
      response := some ⟨.ok, BitVec.ofNat 32 s.nInst⟩ })

/-- ENABLE (R220): its encoding, BAD_HANDLE, and its effect, none on an instance that is running. -/
def Obligations.EnableMeaning : Prop :=
  EncodesAs 0x02 onlyH (fun x => .enable x.h) ∧ AnswersBadHandle .enable ∧
  ∀ (h : Byte) (s : State) (i : Instance), s.insts[h.toNat]? = some i →
    exec (.enable h) s = .next { s with
      insts := s.insts.set h.toNat (if i.running then i else { i with running := true, loopActive := true })
      response := some ⟨.ok, 0⟩ }

/-- DISABLE (R222): its encoding, BAD_HANDLE, and its effect on the running flag alone. -/
def Obligations.DisableMeaning : Prop :=
  EncodesAs 0x03 onlyH (fun x => .disable x.h) ∧ AnswersBadHandle .disable ∧
  ∀ (h : Byte) (s : State) (i : Instance), s.insts[h.toNat]? = some i →
    exec (.disable h) s = .next { s with
      insts := s.insts.set h.toNat { i with running := false }
      response := some ⟨.ok, 0⟩ }

/-- ENABLED (R224): its encoding, BAD_HANDLE, and the running flag in the response; no state is written. -/
def Obligations.EnabledMeaning : Prop :=
  EncodesAs 0x04 onlyH (fun x => .enabled x.h) ∧ AnswersBadHandle .enabled ∧
  ∀ (h : Byte) (s : State) (i : Instance), s.insts[h.toNat]? = some i →
    exec (.enabled h) s = .next { s with response := some ⟨.ok, if i.running then 1 else 0⟩ }

/-- TX_START (R140): its encoding, BAD_HANDLE, TX_LENGTH_INVALID, and its effect on the length and the cursor alone. -/
def Obligations.TxStartMeaning : Prop :=
  EncodesAs 0x05 (fun x => x.p0 == 0 && x.p1 == 0 && x.b == 0 && x.c == 0) (fun x => .txStart x.h x.a) ∧
  (∀ a : Word, AnswersBadHandle (fun h => .txStart h a)) ∧
  (∀ (h : Byte) (a : Word) (s : State) (i : Instance), s.insts[h.toNat]? = some i → i.txSize < a →
    exec (.txStart h a) s = .next { s with response := some ⟨.txLengthInvalid, 0⟩ }) ∧
  (∀ (h : Byte) (a : Word) (s : State) (i : Instance), s.insts[h.toNat]? = some i → a ≤ i.txSize →
    exec (.txStart h a) s = .next { s with
      insts := s.insts.set h.toNat { i with txLen := a, txCur := 0 }
      response := some ⟨.ok, 0⟩ })

/-- TX_CURSOR (R142): its encoding, BAD_HANDLE, and the transmit cursor in the response; no state is written. -/
def Obligations.TxCursorMeaning : Prop :=
  EncodesAs 0x06 onlyH (fun x => .txCursor x.h) ∧ AnswersBadHandle .txCursor ∧
  ∀ (h : Byte) (s : State) (i : Instance), s.insts[h.toNat]? = some i →
    exec (.txCursor h) s = .next { s with response := some ⟨.ok, i.txCur⟩ }

/-- RX_CURSOR (R182): its encoding, BAD_HANDLE, and the receive cursor in the response; no state is written. -/
def Obligations.RxCursorMeaning : Prop :=
  EncodesAs 0x07 onlyH (fun x => .rxCursor x.h) ∧ AnswersBadHandle .rxCursor ∧
  ∀ (h : Byte) (s : State) (i : Instance), s.insts[h.toNat]? = some i →
    exec (.rxCursor h) s = .next { s with response := some ⟨.ok, i.rxCur⟩ }

/-- RX_RESET (R180): its encoding, BAD_HANDLE, and its effect on the receive cursor alone. -/
def Obligations.RxResetMeaning : Prop :=
  EncodesAs 0x08 onlyH (fun x => .rxReset x.h) ∧ AnswersBadHandle .rxReset ∧
  ∀ (h : Byte) (s : State) (i : Instance), s.insts[h.toNat]? = some i →
    exec (.rxReset h) s = .next { s with
      insts := s.insts.set h.toNat { i with rxCur := 0 }
      response := some ⟨.ok, 0⟩ }

/-- R181, R221: RX_RESET, ENABLE and DISABLE, given twice in a row, leave the same state as once. -/
def Obligations.RepeatedControlIsIdempotent : Prop :=
  ∀ (h : Byte) (i : Instr) (s t : State), i = .rxReset h ∨ i = .enable h ∨ i = .disable h →
    exec i s = .next t → exec i t = .next t

/-- R251: a frame answered with a status other than OK has the value 0 in its response and writes no state, except that
CAPACITY_EXHAUSTED sets `G.fatal`. -/
def Obligations.FailedCommandWritesNothing : Prop :=
  ∀ (f : Frame) (s t : State) (r : Response), performCommand f s = .next t → t.response = some r → r.status ≠ .ok →
    r.value = 0 ∧ t = { s with response := some r, fatal := s.fatal || r.status == .capacityExhausted }

/-- R96, R250: every decoded command completes with one response, whose status is one the table of R250 lets it raise. -/
def Obligations.EveryCommandAnswersAStatusOfItsOwn : Prop :=
  ∀ (i : Instr) (s : State), ∃ t r, exec i s = .next t ∧ t.response = some r ∧ r.status ∈ statusesOf i

/-! ### Frames of the commands -/

/-- ENABLED, TX_CURSOR and RX_CURSOR write nothing but the response: no register, flag or word of SHM (R142, R182, R224). -/
def Obligations.QueriesLeaveTheMachineAlone : Prop :=
  ∀ (h : Byte) (i : Instr) (s t : State), i = .enabled h ∨ i = .txCursor h ∨ i = .rxCursor h → exec i s = .next t →
    t = { s with response := t.response } ∧ ∀ a, t.shm.read a = s.shm.read a

/-- ENABLE, DISABLE, TX_START and RX_RESET write nothing but the response and, in the record they name, the fields their rules
list (R140, R180, R220, R222). -/
def Obligations.ControlsWriteOnlyTheirOwnFields : Prop :=
  ∀ (h : Byte) (n : Word) (c : Instr) (s t : State),
    c = .enable h ∨ c = .disable h ∨ c = .txStart h n ∨ c = .rxReset h → exec c s = .next t →
    t = { s with insts := t.insts, response := t.response } ∧ (∀ a, t.shm.read a = s.shm.read a) ∧
    t.nInst = s.nInst ∧ (∀ g, g ≠ h.toNat → t.insts[g]? = s.insts[g]?) ∧
    ∀ i j, s.insts[h.toNat]? = some i → t.insts[h.toNat]? = some j →
      (c = .enable h → j = { i with running := j.running, loopActive := j.loopActive }) ∧
      (c = .disable h → j = { i with running := j.running }) ∧
      (c = .txStart h n → j = { i with txLen := j.txLen, txCur := j.txCur }) ∧
      (c = .rxReset h → j = { i with rxCur := j.rxCur })

/-- CREATE writes nothing but the response, `G.fatal`, one new record, and the clock where it has not started; the records that
exist and every word of SHM stay (R210, R121). -/
def Obligations.CreateLeavesTheRestAlone : Prop :=
  ∀ (p q : Byte) (a b c : Word) (s t : State), exec (.create p q a b c) s = .next t →
    t = { s with
      insts := t.insts, fatal := t.fatal, clk := t.clk, clkStarted := t.clkStarted, response := t.response } ∧
    (∀ w, t.shm.read w = s.shm.read w) ∧ (∀ g, g < s.nInst → t.insts[g]? = s.insts[g]?) ∧
    (t.nInst = s.nInst ∨ t.nInst = s.nInst + 1) ∧ (s.clkStarted = true → t.clk = s.clk ∧ t.clkStarted = true) ∧
    (t.nInst = s.nInst → t.clk = s.clk ∧ t.clkStarted = s.clkStarted)

/-! ### Power-on and whole-machine rules -/

/-- R290: at power-on the clock has not started, no instance exists, no fatal error is signalled, and SHM and BUFTAB are the
parameters SHM0 and BUFTAB. -/
def Obligations.PowerOnState : Prop :=
  State.reset.clkStarted = false ∧ State.reset.nInst = 0 ∧ State.reset.fatal = false ∧
  (∀ h : Nat, State.reset.insts[h]? = none) ∧ (∀ a : Word, State.reset.shm.read a = Config.shm0 a) ∧
  State.reset.bufTab = Config.bufTab

/-- R150, R183, R69: in the states of R32 every address a step forms lies inside the instance's own buffer, and neither it nor a
cursor's advance wraps. -/
def Obligations.EveryAddressLiesInItsBuffer : Prop :=
  ∀ i : Instance, InstanceInv i →
    (i.txCur ≠ i.txLen → wordIn (txElemAddr i) i.txBase i.txSize ∧
      (txElemAddr i).toNat = i.txBase.toNat + i.txCur.toNat ∧ (i.txCur + 1).toNat = i.txCur.toNat + 1) ∧
    wordIn (rxElemAddr i) i.rxBase i.rxCap ∧
    (rxElemAddr i).toNat = i.rxBase.toNat + i.rxCur.toNat ∧ (i.rxCur + 1).toNat = i.rxCur.toNat + 1

/-- The invariant of R32 holds at power-on. -/
def Obligations.InvariantHoldsAtPowerOn : Prop :=
  Inv State.reset

/-- R32: every step keeps the invariant (cursors within bounds, even capacities, buffers within SHM, the clock started exactly
when an instance exists, at most MAX_INSTANCES instances, a running instance's loop active), and SHM keeps its canonical form. -/
def Obligations.StepKeepsTheInvariant : Prop :=
  ∀ s t : State, Inv s → step s = .next t → Inv t

/-- R27, R157: at power-on and after every step that starts from it, a non-zero guard lies above its target. -/
def Obligations.StepKeepsGuardsAboveTheirTargets : Prop :=
  GuardInv State.reset ∧ ∀ s t : State, GuardInv s → step s = .next t → GuardInv t

/-- R124: `G.CLK = (CLK_EPOCH + G.U) mod 2^32` in every state after the start; it holds at power-on and every step keeps it. -/
def Obligations.StepKeepsTheClockLaw : Prop :=
  ClockLaw State.reset ∧ ∀ s t : State, ClockLaw s → step s = .next t → ClockLaw t

/-- R21, R124: only a tick and the start change the clock, a tick adds one, the start is the first successful CREATE and sets
CLK_EPOCH, and a started clock stays started. -/
def Obligations.OnlyTicksAndTheStartMoveTheClock : Prop :=
  ∀ s t : State, step s = .next t →
    (s.clkStarted = true → t.clkStarted = true ∧ (t.clk = s.clk ∨ nextEvent s = .tick ∧ t.clk = s.clk + 1)) ∧
    (s.clkStarted = false → t.clkStarted = false ∧ t.clk = s.clk ∨
      t.clkStarted = true ∧ t.clk = Config.clkEpoch ∧
        ∃ f p q a b c, nextEvent s = .command f ∧ decode f = some (.create p q a b c) ∧ t.nInst = s.nInst + 1)

/-- R257: nothing clears `G.fatal`, and only a CREATE with MAX_INSTANCES instances in existence sets it. -/
def Obligations.FatalIsStickyAndOnlyCreateSetsIt : Prop :=
  ∀ s t : State, step s = .next t →
    (s.fatal = true → t.fatal = true) ∧
    (s.fatal = false → t.fatal = true →
      s.nInst = Config.maxInstances ∧ t.nInst = s.nInst ∧
      ∃ f p q a b c, nextEvent s = .command f ∧ decode f = some (.create p q a b c))

/-- R23, R25, R211: no step destroys an instance or reuses its handle, its pins and buffers never change, and a step makes at most
one instance. -/
def Obligations.InstancesPersistWithTheirBindings : Prop :=
  ∀ s t : State, step s = .next t →
    (t.nInst = s.nInst ∨ t.nInst = s.nInst + 1) ∧
    ∀ (h : Nat) (i : Instance), s.insts[h]? = some i → ∃ j, t.insts[h]? = some j ∧
      j.txPin = i.txPin ∧ j.rxPin = i.rxPin ∧ j.txBase = i.txBase ∧ j.txSize = i.txSize ∧
      j.rxBase = i.rxBase ∧ j.rxCap = i.rxCap

/-- R67, R70: a host write of one word is read back from its address, and leaves every other word and every register alone. -/
def Obligations.HostWriteChangesOneWord : Prop :=
  ∀ (s : State) (a v : Word), ∃ t, perform (.poke a v) s = .next t ∧ t.hostRead a = v ∧
    (∀ b, b ≠ a → t.hostRead b = s.hostRead b) ∧ t = { s with shm := t.shm }

/-! ### The clock (40_clock.md) -/

/-- R122: a tick of the started clock adds one modulo 2^32 and writes nothing else (but the ghost count). Before the start the
clock agent takes no step, which this model shows as an unchanged state (log 3). -/
def Obligations.TickAddsOne : Prop :=
  (∀ s : State, s.clkStarted = true → perform .tick s = .next { s with clk := s.clk + 1, ticks := s.ticks + 1 }) ∧
  (∀ s : State, s.clkStarted = false → perform .tick s = .next s)

/-- R125, R126: after n ticks the clock has advanced by n, and the difference of the two counter values is n exactly when
n < 2^32. -/
def Obligations.ElapsedTicksAreTheDifference : Prop :=
  ∀ (n : Nat) (s : State) (rest : List Event), s.clkStarted = true → s.pending = List.replicate n .tick ++ rest →
    ∃ t, Host.Core.run core n s = .next t ∧ t.pending = rest ∧ t.clk = s.clk + BitVec.ofNat 32 n ∧
      ((t.clk - s.clk).toNat = n ↔ n < 2 ^ 32)

/-! ### Transmit (41_transmit.md) -/

/-- R150: the TX step in its cases: idle; arming and firing at cursor 0; firing; clearing the guard at most; waiting for the wrap. -/
def Obligations.TxStepMeaning : Prop :=
  ∀ (m : Memory) (t : Word) (i : Instance),
    (i.txCur = i.txLen → txStep m t i = i) ∧
    (i.txCur ≠ i.txLen → i.txCur = 0 →
      txStep m t i = { i with
        txLevel := some 1, txTarget := t + m.read i.txBase, txCur := 1
        txGuard := if t ≤ t + m.read i.txBase then 0 else t }) ∧
    (i.txCur ≠ i.txLen → i.txCur ≠ 0 → (i.txGuard = 0 ∨ t < i.txGuard) → i.txTarget ≤ t →
      txStep m t i = { i with
        txLevel := some (if i.txCur.toNat % 2 = 0 then 1 else 0)
        txTarget := i.txTarget + m.read (i.txBase + i.txCur), txCur := i.txCur + 1
        txGuard := if i.txTarget ≤ i.txTarget + m.read (i.txBase + i.txCur) then 0 else i.txTarget }) ∧
    (i.txCur ≠ i.txLen → i.txCur ≠ 0 → (i.txGuard = 0 ∨ t < i.txGuard) → t < i.txTarget →
      txStep m t i = { i with txGuard := 0 }) ∧
    (i.txCur ≠ i.txLen → i.txCur ≠ 0 → i.txGuard ≠ 0 → i.txGuard ≤ t → txStep m t i = i)

/-- R153 to R156: where the guard is 0 and the sample has reached the target, the step drives 1 at an even cursor and 0 at an odd
one, advances the target by the element at the cursor, and advances the cursor by one; the guard keeps the target as it was
before the advance, until R157 clears it. In any other case step 3 changes nothing. -/
def Obligations.DueTransitionFires : Prop :=
  ∀ (m : Memory) (t : Word) (i : Instance), i.txCur ≠ i.txLen →
    ((txReady t i).txGuard = 0 → (txReady t i).txTarget ≤ t →
      ∃ j, txAdvance (m.read (i.txBase + i.txCur)) (txReady t i) = j ∧ txStep m t i = txClearGuard j ∧
        j.txLevel = some (if i.txCur.toNat % 2 = 0 then 1 else 0) ∧ j.txGuard = (txReady t i).txTarget ∧
        j.txTarget = (txReady t i).txTarget + m.read (i.txBase + i.txCur) ∧ j.txCur = i.txCur + 1) ∧
    ((txReady t i).txGuard ≠ 0 ∨ t < (txReady t i).txTarget → txStep m t i = txReady t i)

/-- R157: the guard stays non-zero after a fire exactly when the advance carried out of 32 bits, and it is then the target as it
was before the advance. -/
def Obligations.GuardKeptExactlyOnCarry : Prop :=
  ∀ (d : Word) (i : Instance),
    ((txClearGuard (txAdvance d i)).txGuard ≠ 0 ↔ 2 ^ 32 ≤ i.txTarget.toNat + d.toNat) ∧
    ((txClearGuard (txAdvance d i)).txGuard ≠ 0 → (txClearGuard (txAdvance d i)).txGuard = i.txTarget)

/-- R158: a TX step fires at most one transition; one that does not fire writes at most the target and the guard, and doing it
again at the same sample writes nothing new. -/
def Obligations.AtMostOneTransitionPerIteration : Prop :=
  ∀ (m : Memory) (t : Word) (i : Instance),
    ((txStep m t i).txCur = i.txCur + 1 ∨
      (txStep m t i = { i with txTarget := (txStep m t i).txTarget, txGuard := (txStep m t i).txGuard } ∧
        txStep m t (txStep m t i) = txStep m t i))

/-- R159: after TX_START with a positive length, the instance's first iteration fires at once: it drives level 1 and arms the
schedule at its own clock sample. -/
def Obligations.FirstTransitionFiresAtOnce : Prop :=
  ∀ (h : Byte) (n : Word) (input : RxInput) (s : State) (i : Instance),
    s.insts[h.toNat]? = some i → i.running = true → i.loopActive = true → n ≠ 0 → n ≤ i.txSize →
    ∃ t u j, exec (.txStart h n) s = .next t ∧ perform (.iter h.toNat input) t = .next u ∧
      u.insts[h.toNat]? = some j ∧ j.txLevel = some 1 ∧ j.txCur = 1 ∧ j.txLen = n ∧
      j.txTarget = s.clk + s.shm.read i.txBase

/-- R30: the target and the guard a transmission starts from are never observable. -/
def Obligations.StaleTargetAndGuardAreUnobservable : Prop :=
  ∀ (m : Memory) (t a b : Word) (i : Instance), i.txCur = 0 → i.txLen ≠ 0 →
    txStep m t { i with txTarget := a, txGuard := b } = txStep m t i

/-- R160: over any samples, with SHM as it stands throughout, a transmission keeps the absolute schedule: after k transitions the target is `T0 + S_k` modulo 2^32,
where T0 is the first sample, and the line has the level of transition k - 1. -/
def Obligations.TransmissionKeepsTheAbsoluteSchedule : Prop :=
  ∀ (m : Memory) (i : Instance) (t0 : Word) (ts : List Word), i.txCur = 0 → i.txLen ≠ 0 →
    1 ≤ (txRun m i (t0 :: ts)).txCur.toNat ∧ (txRun m i (t0 :: ts)).txCur ≤ i.txLen ∧
    (txRun m i (t0 :: ts)).txTarget = t0 + BitVec.ofNat 32 (txSum m i (txRun m i (t0 :: ts)).txCur.toNat) ∧
    (txRun m i (t0 :: ts)).txLevel = some (if (txRun m i (t0 :: ts)).txCur.toNat % 2 = 1 then 1 else 0)

/-- R160 at each step, whatever the host writes to SHM between two steps: the first TX step of a transmission puts it on the schedule
of its own sample, and every TX step keeps it there, adding to the elements read the one at the cursor where it fires. -/
def Obligations.TxStepKeepsTheSchedule : Prop :=
  ∀ (m : Memory) (t : Word) (i : Instance), i.txCur ≤ i.txLen →
    (i.txCur = 0 → i.txLen ≠ 0 → OnSchedule t [m.read i.txBase] (txStep m t i)) ∧
    ∀ (t0 : Word) (ds : List Word), OnSchedule t0 ds i →
      ((txStep m t i).txCur = i.txCur ∧ OnSchedule t0 ds (txStep m t i)) ∨
      ((txStep m t i).txCur = i.txCur + 1 ∧ OnSchedule t0 (ds ++ [m.read (i.txBase + i.txCur)]) (txStep m t i))

/-- R161: the fire that brings the cursor to the length ends the transmission: no later sample changes anything, so the last
interval is not waited out. -/
def Obligations.LastIntervalIsNotWaitedOut : Prop :=
  ∀ (m : Memory) (t : Word) (i : Instance) (ts : List Word), i.txCur ≠ i.txLen → i.txCur + 1 = i.txLen →
    (txStep m t i).txCur = i.txCur + 1 → txRun m (txStep m t i) ts = txStep m t i

/-- R165, R166: a pending transition with no guard does not fire while every sample is below its target, however late; and one
with a guard does not fire while no sample falls below the guard. -/
def Obligations.MissedWindowsDelayATransition : Prop :=
  ∀ (m : Memory) (i : Instance) (ts : List Word), i.txCur ≠ i.txLen → i.txCur ≠ 0 →
    (i.txGuard = 0 → (∀ t ∈ ts, t < i.txTarget) → txRun m i ts = i) ∧
    (i.txGuard ≠ 0 → (∀ t ∈ ts, i.txGuard ≤ t) → txRun m i ts = i)

/-- R163, the timing theorem, with SHM as it stands throughout: under its assumptions each transition k fires at the first sample at or after its due time D_k,
and less than P ticks after it. -/
def Obligations.PolledTransmissionIsOnTime : Prop :=
  ∀ (P : Nat) (m : Memory) (i : Instance) (c : Nat → Nat) (j : Nat), i.txCur = 0 → i.txLen ≠ 0 →
    PolledWithin P i.txLen.toNat m i c j →
    (∀ l ≤ j, ∀ k < i.txLen.toNat, k < (txAt m i c l).txCur.toNat ↔ dueAt m i c k ≤ c l) ∧
    (∀ l < j, ∀ k < i.txLen.toNat, ¬ k < (txAt m i c l).txCur.toNat → k < (txAt m i c (l + 1)).txCur.toNat →
      dueAt m i c k ≤ c (l + 1) ∧ c (l + 1) < dueAt m i c k + P)

/-- R168, R74: a TX step reads no word of SHM but the element at its own cursor, and no word at all where no transition fires. -/
def Obligations.TxStepReadsOnlyTheElementAtItsCursor : Prop :=
  ∀ (m n : Memory) (t : Word) (i : Instance),
    (m.read (i.txBase + i.txCur) = n.read (i.txBase + i.txCur) → txStep m t i = txStep n t i) ∧
    (i.txCur = i.txLen ∨ (txReady t i).txGuard ≠ 0 ∨ t < (txReady t i).txTarget → txStep m t i = txStep n t i)

/-! ### Receive (42_receive.md) -/

/-- R184, R185: at an even cursor a sample of 1, and at an odd cursor a sample of 0, is recorded: the time since the last edge is
written at the cursor, the cursor advances modulo the capacity, and the last edge time is the sample's. Any other sample records
nothing. -/
def Obligations.RxStepMeaning : Prop :=
  ∀ (t : Word) (lvl : Level) (i : Instance) (m : Memory),
    ((i.rxCur.toNat % 2 = 0 ↔ lvl = 1) →
      rxStep t lvl i m =
        ({ i with rxCur := (i.rxCur + 1) % i.rxCap, rxLast := t }, m.write (i.rxBase + i.rxCur) (t - i.rxLast))) ∧
    (¬ (i.rxCur.toNat % 2 = 0 ↔ lvl = 1) → rxStep t lvl i m = (i, m))

/-- R188: with samples unwrapped to natural numbers, a record holds the elapsed ticks modulo 2^32, so exactly the elapsed ticks
when they are fewer than 2^32. -/
def Obligations.RecordHoldsTheElapsedTicks : Prop :=
  ∀ (c₀ c₁ : Nat) (lvl : Level) (i : Instance) (m : Memory), c₀ ≤ c₁ → i.rxLast = BitVec.ofNat 32 c₀ →
    edgeSeen i lvl = true →
    ((rxStep (BitVec.ofNat 32 c₁) lvl i m).2.read (rxElemAddr i)).toNat = (c₁ - c₀) % 2 ^ 32 ∧
    (((rxStep (BitVec.ofNat 32 c₁) lvl i m).2.read (rxElemAddr i)).toNat = c₁ - c₀ ↔ c₁ - c₀ < 2 ^ 32)

/-- R192: after an RX step the parity of the cursor follows the line: the same level again records nothing. -/
def Obligations.CursorParityFollowsTheLine : Prop :=
  ∀ (t t' : Word) (lvl : Level) (i : Instance) (m m' : Memory), i.rxCur < i.rxCap → i.rxCap.toNat % 2 = 0 →
    rxStep t' lvl (rxStep t lvl i m).1 m' = ((rxStep t lvl i m).1, m')

/-- R191: over any samples from cursor 0, after n records the cursor is n modulo the capacity, and the ring holds the most recent
min(n, capacity) records, record j at index j modulo the capacity. -/
def Obligations.RingHoldsTheMostRecentRecords : Prop :=
  ∀ (i : Instance) (m : Memory) (ts : List (Word × Level)), i.rxCur = 0 → i.rxCap ≠ 0 →
    i.rxBase.toNat + i.rxCap.toNat ≤ 2 ^ 32 →
    (rxRun (i, m) ts).1.rxCur.toNat = (rxLog i ts).length % i.rxCap.toNat ∧
    ∀ (j : Nat) (v : Word), (rxLog i ts).length ≤ j + i.rxCap.toNat → (rxLog i ts)[j]? = some v →
      (rxRun (i, m) ts).2.read (i.rxBase + BitVec.ofNat 32 (j % i.rxCap.toNat)) = v

/-- R193, R313: in loopback, where the cursor's parity follows the line, an edge that an iteration drives is not recorded by that
iteration but by the next, with the time from the last edge to the next iteration's own sample. -/
def Obligations.LoopbackEdgeIsRecordedAtTheNextIteration : Prop :=
  ∀ (m : Memory) (t t' : Word) (idle : Level) (i : Instance),
    (i.rxCur.toNat % 2 = 0 ↔ i.txLevel.getD idle = 0) → (txStep m t i).txLevel.getD idle ≠ i.txLevel.getD idle →
    ∃ j, iteration t (pinSample i (.loopback idle)) i m = (j, m) ∧ j.rxCur = i.rxCur ∧ j.rxLast = i.rxLast ∧
      (iteration t' (pinSample j (.loopback idle)) j m).2 = m.write (rxElemAddr i) (t' - i.rxLast) ∧
      (iteration t' (pinSample j (.loopback idle)) j m).1.rxCur = (i.rxCur + 1) % i.rxCap ∧
      (iteration t' (pinSample j (.loopback idle)) j m).1.rxLast = t'

/-! ### The run loop (43_lifecycle.md) -/

/-- R231: a loop step takes its exit where the instance is not running, and otherwise runs the TX step and then the RX step on one
sample of the clock and the line. -/
def Obligations.LoopStepMeaning : Prop :=
  (∀ (h : Nat) (input : RxInput) (s : State) (i : Instance), s.insts[h]? = some i → i.loopActive = true →
    i.running = false → perform (.iter h input) s = .next { s with insts := s.insts.set h { i with loopActive := false } }) ∧
  (∀ (h : Nat) (input : RxInput) (s : State) (i : Instance) (lvl : Level), s.insts[h]? = some i → i.loopActive = true →
    i.running = true → (input = .line lvl ∨ ∃ idle, input = .loopback idle ∧ lvl = i.txLevel.getD idle) →
    perform (.iter h input) s = .next { s with
      insts := s.insts.set h (rxStep s.clk lvl (txStep s.shm s.clk i) s.shm).1
      shm := (rxStep s.clk lvl (txStep s.shm s.clk i) s.shm).2 })

/-- R230: the loop engine of an instance that is not active, or that does not exist, takes no step, which this model shows as an
unchanged state (log 3). -/
def Obligations.InactiveLoopTakesNoStep : Prop :=
  ∀ (h : Nat) (input : RxInput) (s : State), (∀ i, s.insts[h]? = some i → i.loopActive = false) →
    perform (.iter h input) s = .next s

/-- R236, R232: a loop step writes no other instance, no global but SHM, no constant of its own record, and no word of SHM but the
element at its own receive cursor. -/
def Obligations.LoopStepTouchesOnlyItsInstance : Prop :=
  ∀ (h : Nat) (input : RxInput) (s t : State) (i j : Instance), s.insts[h]? = some i →
    perform (.iter h input) s = .next t → t.insts[h]? = some j →
    t = { s with insts := t.insts, shm := t.shm } ∧ t.nInst = s.nInst ∧ (∀ g, g ≠ h → t.insts[g]? = s.insts[g]?) ∧
    (∀ a, a ≠ rxElemAddr i → t.shm.read a = s.shm.read a) ∧
    j = { i with
      txCur := j.txCur, txTarget := j.txTarget, txGuard := j.txGuard, txLevel := j.txLevel
      rxCur := j.rxCur, rxLast := j.rxLast, loopActive := j.loopActive } ∧
    (i.running = true → j.loopActive = i.loopActive)

/-- R232: the order of the TX step and the RX step within an iteration is unobservable unless the RX step writes the very element
the TX step reads. -/
def Obligations.TxAndRxStepsCommute : Prop :=
  ∀ (m : Memory) (t : Word) (lvl : Level) (i : Instance), rxElemAddr i ≠ txElemAddr i →
    iteration t lvl i m =
      (txStep (rxStep t lvl i m).2 t (rxStep t lvl i m).1, (rxStep t lvl i m).2)

/-- R71: the loop steps of two instances commute whenever neither ring overlaps a buffer of the other. -/
def Obligations.LoopStepsOfTwoInstancesCommute : Prop :=
  ∀ (s : State) (g h : Nat) (a b : RxInput) (i j : Instance), g ≠ h → s.insts[g]? = some i → s.insts[h]? = some j →
    InstanceInv i → InstanceInv j → s.shm.wf → BuffersApart i j →
    ∃ u u' v, perform (.iter g a) s = .next u ∧ perform (.iter h b) u = .next v ∧
      perform (.iter h b) s = .next u' ∧ perform (.iter g a) u' = .next v

/-- R223: after DISABLE no new iteration begins: the loop's next step is its exit, and it changes nothing but the hidden flag. -/
def Obligations.DisableEndsTheLoopAtItsNextStep : Prop :=
  ∀ (h : Byte) (input : RxInput) (s : State) (i : Instance), s.insts[h.toNat]? = some i → i.loopActive = true →
    ∃ t, exec (.disable h) s = .next t ∧
      perform (.iter h.toNat input) t =
        .next { t with insts := t.insts.set h.toNat { i with running := false, loopActive := false } }

/-- R235: DISABLE and then ENABLE with no loop step in between leaves the same loop running. -/
def Obligations.EnableBeforeTheExitKeepsTheLoop : Prop :=
  ∀ (h : Byte) (s : State) (i : Instance), s.insts[h.toNat]? = some i → i.running = true → i.loopActive = true →
    ∃ t, exec (.disable h) s = .next t ∧ exec (.enable h) t = .next { s with response := some ⟨.ok, 0⟩ }

/-- R143, R269: an instance whose loop is not active keeps its whole record through every step but a command. -/
def Obligations.InactiveInstanceIsFrozen : Prop :=
  ∀ (h : Nat) (s t : State) (i : Instance), s.insts[h]? = some i → i.loopActive = false →
    (∀ f, nextEvent s ≠ .command f) → step s = .next t → t.insts[h]? = some i
end

