-- ==== Sys2Proof/Laws/Decode.lean ====
section
/-! SUPPORT. A frame and its fields are the same data, and each row of the opcode table says what it says field by field. -/

namespace Sys2Proof

/-- The fields of the frame with given fields are those fields (R91). -/
@[simp] theorem fieldsOf_frameOf (x : Fields) : fieldsOf (frameOf x) = x := by
  obtain ⟨op, h, p0, p1, a, b, c⟩ := x
  simp only [fieldsOf, frameOf, frameOfWords, wordZero, Fields.mk.injEq]
  refine ⟨?_, ?_, ?_, ?_, ?_, ?_, ?_⟩ <;>
  · ext k hk
    simp (disch := omega) [decide_eq_true, decide_eq_false, BitVec.getLsbD_of_ge]

theorem frameOf_inj {x y : Fields} (h : frameOf x = frameOf y) : x = y := by
  simpa using congrArg fieldsOf h

/-- The frame with the fields of a frame is that frame: the seven fields cover all 128 bits (R91). -/
@[simp] theorem frameOf_fieldsOf (f : Frame) : frameOf (fieldsOf f) = f := by
  ext k hk
  simp only [fieldsOf, frameOf, frameOfWords, wordZero]
  rcases (by omega : k < 8 ∨ (8 ≤ k ∧ k < 16) ∨ (16 ≤ k ∧ k < 24) ∨ (24 ≤ k ∧ k < 32) ∨ (32 ≤ k ∧ k < 64) ∨
    (64 ≤ k ∧ k < 96) ∨ 96 ≤ k) with h | h | h | h | h | h | h <;>
  simp (disch := omega) [decide_eq_true, decide_eq_false, BitVec.getLsbD_of_ge]

/-- Bitwise and, field by field. -/
theorem and_frameOf (x y : Fields) : frameOf x &&& frameOf y =
    frameOf ⟨x.op &&& y.op, x.h &&& y.h, x.p0 &&& y.p0, x.p1 &&& y.p1, x.a &&& y.a, x.b &&& y.b, x.c &&& y.c⟩ := by
  rw [← frameOf_fieldsOf (frameOf x &&& frameOf y)]
  congr 1
  have hx := fieldsOf_frameOf x
  have hy := fieldsOf_frameOf y
  generalize frameOf x = f at *
  generalize frameOf y = g at *
  subst hx hy
  simp [fieldsOf, BitVec.extractLsb'_and]

/-- A row whose mask and match are given by fields matches field by field (R94). -/
theorem rowMatches_frameOf (mask mat x : Fields) : rowMatches (frameOf mask, frameOf mat) (frameOf x) = true ↔
    x.op &&& mask.op = mat.op ∧ x.h &&& mask.h = mat.h ∧ x.p0 &&& mask.p0 = mat.p0 ∧ x.p1 &&& mask.p1 = mat.p1 ∧
      x.a &&& mask.a = mat.a ∧ x.b &&& mask.b = mat.b ∧ x.c &&& mask.c = mat.c := by
  simp only [rowMatches, and_frameOf, beq_iff_eq]
  constructor
  · intro h
    have := frameOf_inj h
    cases mat
    simpa using this
  · rintro ⟨h1, h2, h3, h4, h5, h6, h7⟩
    simp only [h1, h2, h3, h4, h5, h6, h7]

theorem byte_and_ones (v : Byte) : v &&& 255#8 = v := BitVec.and_allOnes

theorem word_and_ones (v : Word) : v &&& 4294967295#32 = v := BitVec.and_allOnes

/-- The mask of a command that uses H alone: OP and every other field (R93). -/
def maskOnlyH : Fields := ⟨BitVec.allOnes 8, 0, BitVec.allOnes 8, BitVec.allOnes 8, BitVec.allOnes 32, BitVec.allOnes 32, BitVec.allOnes 32⟩

theorem rowMatches_onlyH (op : Byte) (x : Fields) :
    rowMatches (frameOf maskOnlyH, frameOf ⟨op, 0, 0, 0, 0, 0, 0⟩) (frameOf x) = true ↔
      x.op = op ∧ x.p0 = 0 ∧ x.p1 = 0 ∧ x.a = 0 ∧ x.b = 0 ∧ x.c = 0 := by
  rw [rowMatches_frameOf]; simp [maskOnlyH, byte_and_ones, word_and_ones]

theorem createRow_matches (x : Fields) : rowMatches createRow (frameOf x) = true ↔ x.op = 1 ∧ x.h = 0 := by
  rw [show createRow = (frameOf ⟨BitVec.allOnes 8, BitVec.allOnes 8, 0, 0, 0, 0, 0⟩, frameOf ⟨1, 0, 0, 0, 0, 0, 0⟩) by decide,
    rowMatches_frameOf]
  simp [byte_and_ones]

theorem txStartRow_matches (x : Fields) : rowMatches txStartRow (frameOf x) = true ↔
    x.op = 5 ∧ x.p0 = 0 ∧ x.p1 = 0 ∧ x.b = 0 ∧ x.c = 0 := by
  rw [show txStartRow = (frameOf { maskOnlyH with a := 0 }, frameOf ⟨5, 0, 0, 0, 0, 0, 0⟩) by decide, rowMatches_frameOf]
  simp [maskOnlyH, byte_and_ones, word_and_ones]

theorem enableRow_eq : enableRow = (frameOf maskOnlyH, frameOf ⟨2, 0, 0, 0, 0, 0, 0⟩) := by decide
theorem disableRow_eq : disableRow = (frameOf maskOnlyH, frameOf ⟨3, 0, 0, 0, 0, 0, 0⟩) := by decide
theorem enabledRow_eq : enabledRow = (frameOf maskOnlyH, frameOf ⟨4, 0, 0, 0, 0, 0, 0⟩) := by decide
theorem txCursorRow_eq : txCursorRow = (frameOf maskOnlyH, frameOf ⟨6, 0, 0, 0, 0, 0, 0⟩) := by decide
theorem rxCursorRow_eq : rxCursorRow = (frameOf maskOnlyH, frameOf ⟨7, 0, 0, 0, 0, 0, 0⟩) := by decide
theorem rxResetRow_eq : rxResetRow = (frameOf maskOnlyH, frameOf ⟨8, 0, 0, 0, 0, 0, 0⟩) := by decide

end Sys2Proof
end

