-- ==== Sys2Proof/Laws/Memory.lean ====
section
/-! SUPPORT. The laws of SHM: a read after a write, the canonical form kept by every operation, and equal reads mean equal data. -/

namespace Sys2Proof.Machine

variable {m n : Memory}

@[simp] theorem find_nil (k : Nat) : Memory.find k [] = none := rfl

theorem find_cons (k : Nat) (c : Nat × Word) (m : Memory) :
    Memory.find k (c :: m) = if k = c.1 then some c.2 else Memory.find k m := rfl

theorem find_insert (k j : Nat) (v : Word) (m : Memory) :
    (m.insert k v).find j = if j = k then some v else m.find j := by
  induction m with
  | nil => simp [Memory.insert, Memory.find]
  | cons c m ih =>
    simp only [Memory.insert]
    split
    · simp [find_cons]
    · split
      · subst k; simp only [find_cons]; split <;> simp_all
      case isFalse hne =>
        simp only [find_cons, ih]
        split
        case isTrue hj => rw [if_neg]; rintro rfl; exact hne hj
        case isFalse => rfl

theorem find_erase (k j : Nat) (m : Memory) :
    (m.erase k).find j = if j = k then none else m.find j := by
  induction m with
  | nil => simp [Memory.erase]
  | cons c m ih =>
    simp only [Memory.erase]
    split
    · subst k; rw [ih]; simp only [find_cons]; split <;> simp_all
    case isFalse hne =>
      simp only [find_cons, ih]
      split
      case isTrue hj => rw [if_neg]; rintro rfl; exact hne hj
      case isFalse => rfl

/-- A read after a write: the word written at its own address, the old word at every other (R70). -/
theorem read_write (m : Memory) (a v b : Word) :
    (m.write a v).read b = if b = a then v else m.read b := by
  have hb : b.toNat = a.toNat ↔ b = a := by rw [BitVec.toNat_inj]
  unfold Memory.write Memory.read
  split
  · rw [find_erase]; simp only [hb]; split <;> simp_all
  · rw [find_insert]; simp only [hb]; split <;> simp_all

@[simp] theorem read_write_same (m : Memory) (a v : Word) : (m.write a v).read a = v := by
  simp [read_write]

theorem read_write_other (m : Memory) (v : Word) {a b : Word} (h : b ≠ a) : (m.write a v).read b = m.read b := by
  simp [read_write, h]

/-- Nothing listed: every word reads as SHM0 gives it (R290). -/
@[simp] theorem read_nil (a : Word) : Memory.read [] a = Config.shm0 a := rfl

theorem mem_insert {k : Nat} {v : Word} {c : Nat × Word} (h : c ∈ m.insert k v) : c = (k, v) ∨ c ∈ m := by
  induction m with
  | nil => simp_all [Memory.insert]
  | cons d m ih =>
    simp only [Memory.insert] at h
    split at h
    · simpa using h
    · split at h
      · simp only [List.mem_cons] at h ⊢; tauto
      · simp only [List.mem_cons] at h ⊢; tauto

theorem mem_erase {k : Nat} {c : Nat × Word} (h : c ∈ m.erase k) : c ∈ m := by
  induction m with
  | nil => simp_all [Memory.erase]
  | cons d m ih =>
    simp only [Memory.erase] at h
    split at h
    · exact List.mem_cons_of_mem _ (ih h)
    · simp only [List.mem_cons] at h ⊢; tauto

theorem sorted_insert {k : Nat} {v : Word} (h : m.Pairwise (fun c d => c.1 < d.1)) :
    (m.insert k v).Pairwise (fun c d => c.1 < d.1) := by
  induction m with
  | nil => simp [Memory.insert]
  | cons c m ih =>
    obtain ⟨hc, hm⟩ := List.pairwise_cons.mp h
    simp only [Memory.insert]
    split
    case isTrue hk =>
      refine List.pairwise_cons.mpr ⟨fun d hd => ?_, h⟩
      rcases List.mem_cons.mp hd with rfl | hd
      · exact hk
      · exact hk.trans (hc d hd)
    case isFalse hk =>
      split
      case isTrue he => exact List.pairwise_cons.mpr ⟨fun d hd => he ▸ hc d hd, hm⟩
      case isFalse he =>
        refine List.pairwise_cons.mpr ⟨fun d hd => ?_, ih hm⟩
        rcases mem_insert hd with rfl | hd
        · exact lt_of_le_of_ne (not_lt.mp hk) (Ne.symm he)
        · exact hc d hd

theorem sorted_erase {k : Nat} (h : m.Pairwise (fun c d => c.1 < d.1)) :
    (m.erase k).Pairwise (fun c d => c.1 < d.1) := by
  induction m with
  | nil => simp [Memory.erase]
  | cons c m ih =>
    obtain ⟨hc, hm⟩ := List.pairwise_cons.mp h
    simp only [Memory.erase]
    split
    · exact ih hm
    · exact List.pairwise_cons.mpr ⟨fun d hd => hc d (mem_erase hd), ih hm⟩

/-- Nothing listed is canonical. -/
theorem wf_nil : Memory.wf [] := ⟨List.Pairwise.nil, by simp⟩

/-- A write keeps the canonical form. -/
theorem wf_write (h : m.wf) (a v : Word) : (m.write a v).wf := by
  unfold Memory.write
  split
  · exact ⟨sorted_erase h.1, fun c hc => h.2 c (mem_erase hc)⟩
  case isFalse hv =>
    refine ⟨sorted_insert h.1, fun c hc => ?_⟩
    rcases mem_insert hc with rfl | hc
    · exact ⟨a.isLt, by simpa using hv⟩
    · exact h.2 c hc

theorem find_eq_none_of_lt {k : Nat} (h : ∀ c ∈ m, k < c.1) : m.find k = none := by
  induction m with
  | nil => rfl
  | cons c m ih =>
    have hc := h c (by simp)
    rw [find_cons, if_neg hc.ne, ih fun d hd => h d (List.mem_cons_of_mem _ hd)]

/-- Sorted lists with the same entry at every key are the same list. -/
theorem sorted_ext (hm : m.Pairwise (fun c d => c.1 < d.1)) (hn : n.Pairwise (fun c d => c.1 < d.1))
    (h : ∀ k, m.find k = n.find k) : m = n := by
  induction m generalizing n with
  | nil =>
    cases n with
    | nil => rfl
    | cons d n => have := h d.1; simp [find_cons] at this
  | cons c m ih =>
    obtain ⟨hc, hm⟩ := List.pairwise_cons.mp hm
    cases n with
    | nil => have := h c.1; simp [find_cons] at this
    | cons d n =>
      obtain ⟨hd, hn⟩ := List.pairwise_cons.mp hn
      have key : c.1 = d.1 := by
        rcases lt_trichotomy c.1 d.1 with hlt | heq | hgt
        · have := h c.1
          rw [find_cons, if_pos rfl, find_cons, if_neg hlt.ne,
            find_eq_none_of_lt fun e he => hlt.trans (hd e he)] at this
          exact absurd this (by simp)
        · exact heq
        · have := h d.1
          rw [find_cons (m := n), if_pos rfl, find_cons, if_neg hgt.ne,
            find_eq_none_of_lt fun e he => hgt.trans (hc e he)] at this
          exact absurd this (by simp)
      have val : c.2 = d.2 := by
        have := h c.1
        rw [find_cons, if_pos rfl, find_cons, if_pos key] at this
        exact Option.some.inj this
      refine congrArg₂ _ (Prod.ext key val) (ih hm hn fun k => ?_)
      by_cases hk : k = c.1
      · rw [find_eq_none_of_lt fun e he => hk ▸ hc e he, find_eq_none_of_lt fun e he => hk ▸ key ▸ hd e he]
      · have := h k
        rwa [find_cons, if_neg hk, find_cons, if_neg (key ▸ hk)] at this

theorem mem_of_find {k : Nat} {v : Word} (h : m.find k = some v) : (k, v) ∈ m := by
  induction m with
  | nil => simp at h
  | cons c m ih =>
    rw [find_cons] at h
    split at h
    case isTrue hk => obtain ⟨k', v'⟩ := c; simp_all
    case isFalse => exact List.mem_cons_of_mem _ (ih h)

/-- In canonical form a listed word is one that SHM0 does not give, so what is listed can be read off. -/
theorem find_of_read (h : m.wf) (k : Nat) :
    m.find k = if k < 2 ^ 32 ∧ m.read (BitVec.ofNat 32 k) ≠ Config.shm0 (BitVec.ofNat 32 k)
      then some (m.read (BitVec.ofNat 32 k)) else none := by
  cases hf : m.find k with
  | none =>
    split
    case isTrue hk =>
      refine absurd ?_ hk.2
      rw [Memory.read, BitVec.toNat_ofNat, Nat.mod_eq_of_lt hk.1, hf]; rfl
    case isFalse => rfl
  | some v =>
    obtain ⟨hk, hv⟩ := h.2 _ (mem_of_find hf)
    have hr : m.read (BitVec.ofNat 32 k) = v := by simp only [Memory.read, BitVec.toNat_ofNat, Nat.mod_eq_of_lt hk, hf, Option.getD]
    rw [hr, if_pos ⟨hk, hv⟩]

/-- Memories in canonical form that read alike at every address are the same data. -/
theorem memory_ext (hm : m.wf) (hn : n.wf) (h : ∀ a, m.read a = n.read a) : m = n :=
  sorted_ext hm.1 hn.1 fun k => by rw [find_of_read hm, find_of_read hn, h]

/-- Writes to two addresses can be made in either order. -/
theorem write_comm (h : m.wf) {a b : Word} (v w : Word) (hab : a ≠ b) :
    (m.write a v).write b w = (m.write b w).write a v := by
  refine memory_ext (wf_write (wf_write h _ _) _ _) (wf_write (wf_write h _ _) _ _) fun c => ?_
  simp only [read_write]
  split <;> split <;> simp_all

end Sys2Proof.Machine
end

