-- ==== Sys2Proof/Laws/PerInstr.lean ====
section
/-! SUPPORT. What holds of every command as syntax, constructor by constructor. -/

/-- The fields a command assembles to are well-formed: a defined opcode, and zero in every field it does not use (R91, R93). -/
def Sys2Proof.Laws.EncodesWellFormed.Statement (i : Sys2Proof.Instr) : Prop :=
  (Sys2Proof.fieldsOf (Sys2Proof.encode i)).wellFormed = true

namespace Sys2Proof.Laws.EncodesWellFormed

theorem create (txPin rxPin : Byte) (txBuf rxBuf rxCapacity : Word) :
    Statement (.create txPin rxPin txBuf rxBuf rxCapacity) := by
  unfold Statement; rw [encode, fieldsOf_frameOf]; rfl

theorem enable (h : Byte) : Statement (.enable h) := by
  unfold Statement; rw [encode, fieldsOf_frameOf]; rfl

theorem disable (h : Byte) : Statement (.disable h) := by
  unfold Statement; rw [encode, fieldsOf_frameOf]; rfl

theorem enabled (h : Byte) : Statement (.enabled h) := by
  unfold Statement; rw [encode, fieldsOf_frameOf]; rfl

theorem txStart (h : Byte) (length : Word) : Statement (.txStart h length) := by
  unfold Statement; rw [encode, fieldsOf_frameOf]; rfl

theorem txCursor (h : Byte) : Statement (.txCursor h) := by
  unfold Statement; rw [encode, fieldsOf_frameOf]; rfl

theorem rxCursor (h : Byte) : Statement (.rxCursor h) := by
  unfold Statement; rw [encode, fieldsOf_frameOf]; rfl

theorem rxReset (h : Byte) : Statement (.rxReset h) := by
  unfold Statement; rw [encode, fieldsOf_frameOf]; rfl

end Sys2Proof.Laws.EncodesWellFormed
end

