-- ==== Sys2Proof/Laws/State.lean ====
section
/-! SUPPORT. One lemma per field per update of State and of an instance record, true by rfl, and the fields of the updates that
test something first. -/

namespace Sys2Proof.Machine

variable (s : State) (i : Instance)

/-! ### setInst -/

@[simp] theorem setInst_clk (h : Nat) : (s.setInst h i).clk = s.clk := rfl
@[simp] theorem setInst_clkStarted (h : Nat) : (s.setInst h i).clkStarted = s.clkStarted := rfl
@[simp] theorem setInst_ticks (h : Nat) : (s.setInst h i).ticks = s.ticks := rfl
@[simp] theorem setInst_insts (h : Nat) : (s.setInst h i).insts = s.insts.set h i := rfl
@[simp] theorem setInst_fatal (h : Nat) : (s.setInst h i).fatal = s.fatal := rfl
@[simp] theorem setInst_shm (h : Nat) : (s.setInst h i).shm = s.shm := rfl
@[simp] theorem setInst_bufTab (h : Nat) : (s.setInst h i).bufTab = s.bufTab := rfl
@[simp] theorem setInst_response (h : Nat) : (s.setInst h i).response = s.response := rfl
@[simp] theorem setInst_pending (h : Nat) : (s.setInst h i).pending = s.pending := rfl
@[simp] theorem setInst_turn (h : Nat) : (s.setInst h i).turn = s.turn := rfl

/-! ### memWrite -/

@[simp] theorem memWrite_clk (a v : Word) : (s.memWrite a v).clk = s.clk := rfl
@[simp] theorem memWrite_clkStarted (a v : Word) : (s.memWrite a v).clkStarted = s.clkStarted := rfl
@[simp] theorem memWrite_ticks (a v : Word) : (s.memWrite a v).ticks = s.ticks := rfl
@[simp] theorem memWrite_insts (a v : Word) : (s.memWrite a v).insts = s.insts := rfl
@[simp] theorem memWrite_fatal (a v : Word) : (s.memWrite a v).fatal = s.fatal := rfl
@[simp] theorem memWrite_shm (a v : Word) : (s.memWrite a v).shm = s.shm.write a v := rfl
@[simp] theorem memWrite_bufTab (a v : Word) : (s.memWrite a v).bufTab = s.bufTab := rfl
@[simp] theorem memWrite_response (a v : Word) : (s.memWrite a v).response = s.response := rfl
@[simp] theorem memWrite_pending (a v : Word) : (s.memWrite a v).pending = s.pending := rfl
@[simp] theorem memWrite_turn (a v : Word) : (s.memWrite a v).turn = s.turn := rfl

/-! ### respond -/

@[simp] theorem respond_clk (r : Status) (v : Word) : (respond r v s).clk = s.clk := rfl
@[simp] theorem respond_clkStarted (r : Status) (v : Word) : (respond r v s).clkStarted = s.clkStarted := rfl
@[simp] theorem respond_ticks (r : Status) (v : Word) : (respond r v s).ticks = s.ticks := rfl
@[simp] theorem respond_insts (r : Status) (v : Word) : (respond r v s).insts = s.insts := rfl
@[simp] theorem respond_fatal (r : Status) (v : Word) : (respond r v s).fatal = s.fatal := rfl
@[simp] theorem respond_shm (r : Status) (v : Word) : (respond r v s).shm = s.shm := rfl
@[simp] theorem respond_bufTab (r : Status) (v : Word) : (respond r v s).bufTab = s.bufTab := rfl
@[simp] theorem respond_response (r : Status) (v : Word) : (respond r v s).response = some ⟨r, v⟩ := rfl
@[simp] theorem respond_pending (r : Status) (v : Word) : (respond r v s).pending = s.pending := rfl
@[simp] theorem respond_turn (r : Status) (v : Word) : (respond r v s).turn = s.turn := rfl

/-! ### addInstance -/

@[simp] theorem addInstance_clk : (addInstance i s).clk = s.clk := rfl
@[simp] theorem addInstance_clkStarted : (addInstance i s).clkStarted = s.clkStarted := rfl
@[simp] theorem addInstance_ticks : (addInstance i s).ticks = s.ticks := rfl
@[simp] theorem addInstance_insts : (addInstance i s).insts = s.insts ++ [i] := rfl
@[simp] theorem addInstance_fatal : (addInstance i s).fatal = s.fatal := rfl
@[simp] theorem addInstance_shm : (addInstance i s).shm = s.shm := rfl
@[simp] theorem addInstance_bufTab : (addInstance i s).bufTab = s.bufTab := rfl
@[simp] theorem addInstance_response : (addInstance i s).response = s.response := rfl
@[simp] theorem addInstance_pending : (addInstance i s).pending = s.pending := rfl
@[simp] theorem addInstance_turn : (addInstance i s).turn = s.turn := rfl

/-! ### storeIteration -/

@[simp] theorem storeIteration_clk (h : Nat) (r : Instance × Memory) : (storeIteration h r s).clk = s.clk := rfl
@[simp] theorem storeIteration_clkStarted (h : Nat) (r : Instance × Memory) : (storeIteration h r s).clkStarted = s.clkStarted := rfl
@[simp] theorem storeIteration_ticks (h : Nat) (r : Instance × Memory) : (storeIteration h r s).ticks = s.ticks := rfl
@[simp] theorem storeIteration_insts (h : Nat) (r : Instance × Memory) : (storeIteration h r s).insts = s.insts.set h r.1 := rfl
@[simp] theorem storeIteration_fatal (h : Nat) (r : Instance × Memory) : (storeIteration h r s).fatal = s.fatal := rfl
@[simp] theorem storeIteration_shm (h : Nat) (r : Instance × Memory) : (storeIteration h r s).shm = r.2 := rfl
@[simp] theorem storeIteration_bufTab (h : Nat) (r : Instance × Memory) : (storeIteration h r s).bufTab = s.bufTab := rfl
@[simp] theorem storeIteration_response (h : Nat) (r : Instance × Memory) : (storeIteration h r s).response = s.response := rfl
@[simp] theorem storeIteration_pending (h : Nat) (r : Instance × Memory) : (storeIteration h r s).pending = s.pending := rfl
@[simp] theorem storeIteration_turn (h : Nat) (r : Instance × Memory) : (storeIteration h r s).turn = s.turn := rfl

/-! ### deliver -/

@[simp] theorem deliver_clk (f : Frame) : (deliver f s).clk = s.clk := rfl
@[simp] theorem deliver_clkStarted (f : Frame) : (deliver f s).clkStarted = s.clkStarted := rfl
@[simp] theorem deliver_ticks (f : Frame) : (deliver f s).ticks = s.ticks := rfl
@[simp] theorem deliver_insts (f : Frame) : (deliver f s).insts = s.insts := rfl
@[simp] theorem deliver_fatal (f : Frame) : (deliver f s).fatal = s.fatal := rfl
@[simp] theorem deliver_shm (f : Frame) : (deliver f s).shm = s.shm := rfl
@[simp] theorem deliver_bufTab (f : Frame) : (deliver f s).bufTab = s.bufTab := rfl
@[simp] theorem deliver_response (f : Frame) : (deliver f s).response = s.response := rfl
@[simp] theorem deliver_pending (f : Frame) : (deliver f s).pending = .command f :: s.pending := rfl
@[simp] theorem deliver_turn (f : Frame) : (deliver f s).turn = s.turn := rfl

/-! ### pinWrite -/

@[simp] theorem pinWrite_txPin (lvl : Level) : (pinWrite lvl i).txPin = i.txPin := rfl
@[simp] theorem pinWrite_rxPin (lvl : Level) : (pinWrite lvl i).rxPin = i.rxPin := rfl
@[simp] theorem pinWrite_txBase (lvl : Level) : (pinWrite lvl i).txBase = i.txBase := rfl
@[simp] theorem pinWrite_txSize (lvl : Level) : (pinWrite lvl i).txSize = i.txSize := rfl
@[simp] theorem pinWrite_rxBase (lvl : Level) : (pinWrite lvl i).rxBase = i.rxBase := rfl
@[simp] theorem pinWrite_rxCap (lvl : Level) : (pinWrite lvl i).rxCap = i.rxCap := rfl
@[simp] theorem pinWrite_txLen (lvl : Level) : (pinWrite lvl i).txLen = i.txLen := rfl
@[simp] theorem pinWrite_txCur (lvl : Level) : (pinWrite lvl i).txCur = i.txCur := rfl
@[simp] theorem pinWrite_txTarget (lvl : Level) : (pinWrite lvl i).txTarget = i.txTarget := rfl
@[simp] theorem pinWrite_txGuard (lvl : Level) : (pinWrite lvl i).txGuard = i.txGuard := rfl
@[simp] theorem pinWrite_txLevel (lvl : Level) : (pinWrite lvl i).txLevel = some lvl := rfl
@[simp] theorem pinWrite_rxCur (lvl : Level) : (pinWrite lvl i).rxCur = i.rxCur := rfl
@[simp] theorem pinWrite_rxLast (lvl : Level) : (pinWrite lvl i).rxLast = i.rxLast := rfl
@[simp] theorem pinWrite_running (lvl : Level) : (pinWrite lvl i).running = i.running := rfl
@[simp] theorem pinWrite_loopActive (lvl : Level) : (pinWrite lvl i).loopActive = i.loopActive := rfl

/-! ### txRestart -/

@[simp] theorem txRestart_txPin (n : Word) : (txRestart n i).txPin = i.txPin := rfl
@[simp] theorem txRestart_rxPin (n : Word) : (txRestart n i).rxPin = i.rxPin := rfl
@[simp] theorem txRestart_txBase (n : Word) : (txRestart n i).txBase = i.txBase := rfl
@[simp] theorem txRestart_txSize (n : Word) : (txRestart n i).txSize = i.txSize := rfl
@[simp] theorem txRestart_rxBase (n : Word) : (txRestart n i).rxBase = i.rxBase := rfl
@[simp] theorem txRestart_rxCap (n : Word) : (txRestart n i).rxCap = i.rxCap := rfl
@[simp] theorem txRestart_txLen (n : Word) : (txRestart n i).txLen = n := rfl
@[simp] theorem txRestart_txCur (n : Word) : (txRestart n i).txCur = 0 := rfl
@[simp] theorem txRestart_txTarget (n : Word) : (txRestart n i).txTarget = i.txTarget := rfl
@[simp] theorem txRestart_txGuard (n : Word) : (txRestart n i).txGuard = i.txGuard := rfl
@[simp] theorem txRestart_txLevel (n : Word) : (txRestart n i).txLevel = i.txLevel := rfl
@[simp] theorem txRestart_rxCur (n : Word) : (txRestart n i).rxCur = i.rxCur := rfl
@[simp] theorem txRestart_rxLast (n : Word) : (txRestart n i).rxLast = i.rxLast := rfl
@[simp] theorem txRestart_running (n : Word) : (txRestart n i).running = i.running := rfl
@[simp] theorem txRestart_loopActive (n : Word) : (txRestart n i).loopActive = i.loopActive := rfl

/-! ### txAdvance -/

@[simp] theorem txAdvance_txPin (d : Word) : (txAdvance d i).txPin = i.txPin := rfl
@[simp] theorem txAdvance_rxPin (d : Word) : (txAdvance d i).rxPin = i.rxPin := rfl
@[simp] theorem txAdvance_txBase (d : Word) : (txAdvance d i).txBase = i.txBase := rfl
@[simp] theorem txAdvance_txSize (d : Word) : (txAdvance d i).txSize = i.txSize := rfl
@[simp] theorem txAdvance_rxBase (d : Word) : (txAdvance d i).rxBase = i.rxBase := rfl
@[simp] theorem txAdvance_rxCap (d : Word) : (txAdvance d i).rxCap = i.rxCap := rfl
@[simp] theorem txAdvance_txLen (d : Word) : (txAdvance d i).txLen = i.txLen := rfl
@[simp] theorem txAdvance_txCur (d : Word) : (txAdvance d i).txCur = i.txCur + 1 := rfl
@[simp] theorem txAdvance_txTarget (d : Word) : (txAdvance d i).txTarget = i.txTarget + d := rfl
@[simp] theorem txAdvance_txGuard (d : Word) : (txAdvance d i).txGuard = i.txTarget := rfl
@[simp] theorem txAdvance_txLevel (d : Word) : (txAdvance d i).txLevel = some (levelAt i.txCur) := rfl
@[simp] theorem txAdvance_rxCur (d : Word) : (txAdvance d i).rxCur = i.rxCur := rfl
@[simp] theorem txAdvance_rxLast (d : Word) : (txAdvance d i).rxLast = i.rxLast := rfl
@[simp] theorem txAdvance_running (d : Word) : (txAdvance d i).running = i.running := rfl
@[simp] theorem txAdvance_loopActive (d : Word) : (txAdvance d i).loopActive = i.loopActive := rfl

/-! ### rxRewind -/

@[simp] theorem rxRewind_txPin : (rxRewind i).txPin = i.txPin := rfl
@[simp] theorem rxRewind_rxPin : (rxRewind i).rxPin = i.rxPin := rfl
@[simp] theorem rxRewind_txBase : (rxRewind i).txBase = i.txBase := rfl
@[simp] theorem rxRewind_txSize : (rxRewind i).txSize = i.txSize := rfl
@[simp] theorem rxRewind_rxBase : (rxRewind i).rxBase = i.rxBase := rfl
@[simp] theorem rxRewind_rxCap : (rxRewind i).rxCap = i.rxCap := rfl
@[simp] theorem rxRewind_txLen : (rxRewind i).txLen = i.txLen := rfl
@[simp] theorem rxRewind_txCur : (rxRewind i).txCur = i.txCur := rfl
@[simp] theorem rxRewind_txTarget : (rxRewind i).txTarget = i.txTarget := rfl
@[simp] theorem rxRewind_txGuard : (rxRewind i).txGuard = i.txGuard := rfl
@[simp] theorem rxRewind_txLevel : (rxRewind i).txLevel = i.txLevel := rfl
@[simp] theorem rxRewind_rxCur : (rxRewind i).rxCur = 0 := rfl
@[simp] theorem rxRewind_rxLast : (rxRewind i).rxLast = i.rxLast := rfl
@[simp] theorem rxRewind_running : (rxRewind i).running = i.running := rfl
@[simp] theorem rxRewind_loopActive : (rxRewind i).loopActive = i.loopActive := rfl

/-! ### rxAdvance -/

@[simp] theorem rxAdvance_txPin (t : Word) : (rxAdvance t i).txPin = i.txPin := rfl
@[simp] theorem rxAdvance_rxPin (t : Word) : (rxAdvance t i).rxPin = i.rxPin := rfl
@[simp] theorem rxAdvance_txBase (t : Word) : (rxAdvance t i).txBase = i.txBase := rfl
@[simp] theorem rxAdvance_txSize (t : Word) : (rxAdvance t i).txSize = i.txSize := rfl
@[simp] theorem rxAdvance_rxBase (t : Word) : (rxAdvance t i).rxBase = i.rxBase := rfl
@[simp] theorem rxAdvance_rxCap (t : Word) : (rxAdvance t i).rxCap = i.rxCap := rfl
@[simp] theorem rxAdvance_txLen (t : Word) : (rxAdvance t i).txLen = i.txLen := rfl
@[simp] theorem rxAdvance_txCur (t : Word) : (rxAdvance t i).txCur = i.txCur := rfl
@[simp] theorem rxAdvance_txTarget (t : Word) : (rxAdvance t i).txTarget = i.txTarget := rfl
@[simp] theorem rxAdvance_txGuard (t : Word) : (rxAdvance t i).txGuard = i.txGuard := rfl
@[simp] theorem rxAdvance_txLevel (t : Word) : (rxAdvance t i).txLevel = i.txLevel := rfl
@[simp] theorem rxAdvance_rxCur (t : Word) : (rxAdvance t i).rxCur = rxCurNext i := rfl
@[simp] theorem rxAdvance_rxLast (t : Word) : (rxAdvance t i).rxLast = t := rfl
@[simp] theorem rxAdvance_running (t : Word) : (rxAdvance t i).running = i.running := rfl
@[simp] theorem rxAdvance_loopActive (t : Word) : (rxAdvance t i).loopActive = i.loopActive := rfl

/-! ### requestStop -/

@[simp] theorem requestStop_txPin : (requestStop i).txPin = i.txPin := rfl
@[simp] theorem requestStop_rxPin : (requestStop i).rxPin = i.rxPin := rfl
@[simp] theorem requestStop_txBase : (requestStop i).txBase = i.txBase := rfl
@[simp] theorem requestStop_txSize : (requestStop i).txSize = i.txSize := rfl
@[simp] theorem requestStop_rxBase : (requestStop i).rxBase = i.rxBase := rfl
@[simp] theorem requestStop_rxCap : (requestStop i).rxCap = i.rxCap := rfl
@[simp] theorem requestStop_txLen : (requestStop i).txLen = i.txLen := rfl
@[simp] theorem requestStop_txCur : (requestStop i).txCur = i.txCur := rfl
@[simp] theorem requestStop_txTarget : (requestStop i).txTarget = i.txTarget := rfl
@[simp] theorem requestStop_txGuard : (requestStop i).txGuard = i.txGuard := rfl
@[simp] theorem requestStop_txLevel : (requestStop i).txLevel = i.txLevel := rfl
@[simp] theorem requestStop_rxCur : (requestStop i).rxCur = i.rxCur := rfl
@[simp] theorem requestStop_rxLast : (requestStop i).rxLast = i.rxLast := rfl
@[simp] theorem requestStop_running : (requestStop i).running = false := rfl
@[simp] theorem requestStop_loopActive : (requestStop i).loopActive = i.loopActive := rfl

/-! ### loopExit -/

@[simp] theorem loopExit_txPin : (loopExit i).txPin = i.txPin := rfl
@[simp] theorem loopExit_rxPin : (loopExit i).rxPin = i.rxPin := rfl
@[simp] theorem loopExit_txBase : (loopExit i).txBase = i.txBase := rfl
@[simp] theorem loopExit_txSize : (loopExit i).txSize = i.txSize := rfl
@[simp] theorem loopExit_rxBase : (loopExit i).rxBase = i.rxBase := rfl
@[simp] theorem loopExit_rxCap : (loopExit i).rxCap = i.rxCap := rfl
@[simp] theorem loopExit_txLen : (loopExit i).txLen = i.txLen := rfl
@[simp] theorem loopExit_txCur : (loopExit i).txCur = i.txCur := rfl
@[simp] theorem loopExit_txTarget : (loopExit i).txTarget = i.txTarget := rfl
@[simp] theorem loopExit_txGuard : (loopExit i).txGuard = i.txGuard := rfl
@[simp] theorem loopExit_txLevel : (loopExit i).txLevel = i.txLevel := rfl
@[simp] theorem loopExit_rxCur : (loopExit i).rxCur = i.rxCur := rfl
@[simp] theorem loopExit_rxLast : (loopExit i).rxLast = i.rxLast := rfl
@[simp] theorem loopExit_running : (loopExit i).running = i.running := rfl
@[simp] theorem loopExit_loopActive : (loopExit i).loopActive = false := rfl

/-! ### clockStart: the fields it never writes -/

@[simp] theorem clockStart_ticks : (clockStart s).ticks = s.ticks := by
  unfold clockStart; split <;> rfl
@[simp] theorem clockStart_insts : (clockStart s).insts = s.insts := by
  unfold clockStart; split <;> rfl
@[simp] theorem clockStart_fatal : (clockStart s).fatal = s.fatal := by
  unfold clockStart; split <;> rfl
@[simp] theorem clockStart_shm : (clockStart s).shm = s.shm := by
  unfold clockStart; split <;> rfl
@[simp] theorem clockStart_bufTab : (clockStart s).bufTab = s.bufTab := by
  unfold clockStart; split <;> rfl
@[simp] theorem clockStart_response : (clockStart s).response = s.response := by
  unfold clockStart; split <;> rfl
@[simp] theorem clockStart_pending : (clockStart s).pending = s.pending := by
  unfold clockStart; split <;> rfl
@[simp] theorem clockStart_turn : (clockStart s).turn = s.turn := by
  unfold clockStart; split <;> rfl

/-! ### clockTick: the fields it never writes -/

@[simp] theorem clockTick_clkStarted : (clockTick s).clkStarted = s.clkStarted := by
  unfold clockTick; split <;> rfl
@[simp] theorem clockTick_insts : (clockTick s).insts = s.insts := by
  unfold clockTick; split <;> rfl
@[simp] theorem clockTick_fatal : (clockTick s).fatal = s.fatal := by
  unfold clockTick; split <;> rfl
@[simp] theorem clockTick_shm : (clockTick s).shm = s.shm := by
  unfold clockTick; split <;> rfl
@[simp] theorem clockTick_bufTab : (clockTick s).bufTab = s.bufTab := by
  unfold clockTick; split <;> rfl
@[simp] theorem clockTick_response : (clockTick s).response = s.response := by
  unfold clockTick; split <;> rfl
@[simp] theorem clockTick_pending : (clockTick s).pending = s.pending := by
  unfold clockTick; split <;> rfl
@[simp] theorem clockTick_turn : (clockTick s).turn = s.turn := by
  unfold clockTick; split <;> rfl

/-! ### errorEffect: the fields it never writes -/

@[simp] theorem errorEffect_clk (e : Status) : (errorEffect e s).clk = s.clk := by
  unfold errorEffect; split <;> rfl
@[simp] theorem errorEffect_clkStarted (e : Status) : (errorEffect e s).clkStarted = s.clkStarted := by
  unfold errorEffect; split <;> rfl
@[simp] theorem errorEffect_ticks (e : Status) : (errorEffect e s).ticks = s.ticks := by
  unfold errorEffect; split <;> rfl
@[simp] theorem errorEffect_insts (e : Status) : (errorEffect e s).insts = s.insts := by
  unfold errorEffect; split <;> rfl
@[simp] theorem errorEffect_shm (e : Status) : (errorEffect e s).shm = s.shm := by
  unfold errorEffect; split <;> rfl
@[simp] theorem errorEffect_bufTab (e : Status) : (errorEffect e s).bufTab = s.bufTab := by
  unfold errorEffect; split <;> rfl
@[simp] theorem errorEffect_response (e : Status) : (errorEffect e s).response = s.response := by
  unfold errorEffect; split <;> rfl
@[simp] theorem errorEffect_pending (e : Status) : (errorEffect e s).pending = s.pending := by
  unfold errorEffect; split <;> rfl
@[simp] theorem errorEffect_turn (e : Status) : (errorEffect e s).turn = s.turn := by
  unfold errorEffect; split <;> rfl

/-! ### takeEvent: the fields it never writes -/

@[simp] theorem takeEvent_clk : (takeEvent s).clk = s.clk := by
  unfold takeEvent; split <;> rfl
@[simp] theorem takeEvent_clkStarted : (takeEvent s).clkStarted = s.clkStarted := by
  unfold takeEvent; split <;> rfl
@[simp] theorem takeEvent_ticks : (takeEvent s).ticks = s.ticks := by
  unfold takeEvent; split <;> rfl
@[simp] theorem takeEvent_insts : (takeEvent s).insts = s.insts := by
  unfold takeEvent; split <;> rfl
@[simp] theorem takeEvent_fatal : (takeEvent s).fatal = s.fatal := by
  unfold takeEvent; split <;> rfl
@[simp] theorem takeEvent_shm : (takeEvent s).shm = s.shm := by
  unfold takeEvent; split <;> rfl
@[simp] theorem takeEvent_bufTab : (takeEvent s).bufTab = s.bufTab := by
  unfold takeEvent; split <;> rfl
@[simp] theorem takeEvent_response : (takeEvent s).response = s.response := by
  unfold takeEvent; split <;> rfl

/-! ### txArm: the fields it never writes -/

@[simp] theorem txArm_txPin (t : Word) : (txArm t i).txPin = i.txPin := by
  unfold txArm; split <;> rfl
@[simp] theorem txArm_rxPin (t : Word) : (txArm t i).rxPin = i.rxPin := by
  unfold txArm; split <;> rfl
@[simp] theorem txArm_txBase (t : Word) : (txArm t i).txBase = i.txBase := by
  unfold txArm; split <;> rfl
@[simp] theorem txArm_txSize (t : Word) : (txArm t i).txSize = i.txSize := by
  unfold txArm; split <;> rfl
@[simp] theorem txArm_rxBase (t : Word) : (txArm t i).rxBase = i.rxBase := by
  unfold txArm; split <;> rfl
@[simp] theorem txArm_rxCap (t : Word) : (txArm t i).rxCap = i.rxCap := by
  unfold txArm; split <;> rfl
@[simp] theorem txArm_txLen (t : Word) : (txArm t i).txLen = i.txLen := by
  unfold txArm; split <;> rfl
@[simp] theorem txArm_txCur (t : Word) : (txArm t i).txCur = i.txCur := by
  unfold txArm; split <;> rfl
@[simp] theorem txArm_txLevel (t : Word) : (txArm t i).txLevel = i.txLevel := by
  unfold txArm; split <;> rfl
@[simp] theorem txArm_rxCur (t : Word) : (txArm t i).rxCur = i.rxCur := by
  unfold txArm; split <;> rfl
@[simp] theorem txArm_rxLast (t : Word) : (txArm t i).rxLast = i.rxLast := by
  unfold txArm; split <;> rfl
@[simp] theorem txArm_running (t : Word) : (txArm t i).running = i.running := by
  unfold txArm; split <;> rfl
@[simp] theorem txArm_loopActive (t : Word) : (txArm t i).loopActive = i.loopActive := by
  unfold txArm; split <;> rfl

/-! ### txDetectWrap: the fields it never writes -/

@[simp] theorem txDetectWrap_txPin (t : Word) : (txDetectWrap t i).txPin = i.txPin := by
  unfold txDetectWrap; split <;> rfl
@[simp] theorem txDetectWrap_rxPin (t : Word) : (txDetectWrap t i).rxPin = i.rxPin := by
  unfold txDetectWrap; split <;> rfl
@[simp] theorem txDetectWrap_txBase (t : Word) : (txDetectWrap t i).txBase = i.txBase := by
  unfold txDetectWrap; split <;> rfl
@[simp] theorem txDetectWrap_txSize (t : Word) : (txDetectWrap t i).txSize = i.txSize := by
  unfold txDetectWrap; split <;> rfl
@[simp] theorem txDetectWrap_rxBase (t : Word) : (txDetectWrap t i).rxBase = i.rxBase := by
  unfold txDetectWrap; split <;> rfl
@[simp] theorem txDetectWrap_rxCap (t : Word) : (txDetectWrap t i).rxCap = i.rxCap := by
  unfold txDetectWrap; split <;> rfl
@[simp] theorem txDetectWrap_txLen (t : Word) : (txDetectWrap t i).txLen = i.txLen := by
  unfold txDetectWrap; split <;> rfl
@[simp] theorem txDetectWrap_txCur (t : Word) : (txDetectWrap t i).txCur = i.txCur := by
  unfold txDetectWrap; split <;> rfl
@[simp] theorem txDetectWrap_txTarget (t : Word) : (txDetectWrap t i).txTarget = i.txTarget := by
  unfold txDetectWrap; split <;> rfl
@[simp] theorem txDetectWrap_txLevel (t : Word) : (txDetectWrap t i).txLevel = i.txLevel := by
  unfold txDetectWrap; split <;> rfl
@[simp] theorem txDetectWrap_rxCur (t : Word) : (txDetectWrap t i).rxCur = i.rxCur := by
  unfold txDetectWrap; split <;> rfl
@[simp] theorem txDetectWrap_rxLast (t : Word) : (txDetectWrap t i).rxLast = i.rxLast := by
  unfold txDetectWrap; split <;> rfl
@[simp] theorem txDetectWrap_running (t : Word) : (txDetectWrap t i).running = i.running := by
  unfold txDetectWrap; split <;> rfl
@[simp] theorem txDetectWrap_loopActive (t : Word) : (txDetectWrap t i).loopActive = i.loopActive := by
  unfold txDetectWrap; split <;> rfl

/-! ### txClearGuard: the fields it never writes -/

@[simp] theorem txClearGuard_txPin : (txClearGuard i).txPin = i.txPin := by
  unfold txClearGuard; split <;> rfl
@[simp] theorem txClearGuard_rxPin : (txClearGuard i).rxPin = i.rxPin := by
  unfold txClearGuard; split <;> rfl
@[simp] theorem txClearGuard_txBase : (txClearGuard i).txBase = i.txBase := by
  unfold txClearGuard; split <;> rfl
@[simp] theorem txClearGuard_txSize : (txClearGuard i).txSize = i.txSize := by
  unfold txClearGuard; split <;> rfl
@[simp] theorem txClearGuard_rxBase : (txClearGuard i).rxBase = i.rxBase := by
  unfold txClearGuard; split <;> rfl
@[simp] theorem txClearGuard_rxCap : (txClearGuard i).rxCap = i.rxCap := by
  unfold txClearGuard; split <;> rfl
@[simp] theorem txClearGuard_txLen : (txClearGuard i).txLen = i.txLen := by
  unfold txClearGuard; split <;> rfl
@[simp] theorem txClearGuard_txCur : (txClearGuard i).txCur = i.txCur := by
  unfold txClearGuard; split <;> rfl
@[simp] theorem txClearGuard_txTarget : (txClearGuard i).txTarget = i.txTarget := by
  unfold txClearGuard; split <;> rfl
@[simp] theorem txClearGuard_txLevel : (txClearGuard i).txLevel = i.txLevel := by
  unfold txClearGuard; split <;> rfl
@[simp] theorem txClearGuard_rxCur : (txClearGuard i).rxCur = i.rxCur := by
  unfold txClearGuard; split <;> rfl
@[simp] theorem txClearGuard_rxLast : (txClearGuard i).rxLast = i.rxLast := by
  unfold txClearGuard; split <;> rfl
@[simp] theorem txClearGuard_running : (txClearGuard i).running = i.running := by
  unfold txClearGuard; split <;> rfl
@[simp] theorem txClearGuard_loopActive : (txClearGuard i).loopActive = i.loopActive := by
  unfold txClearGuard; split <;> rfl

/-! ### startLoop: the fields it never writes -/

@[simp] theorem startLoop_txPin : (startLoop i).txPin = i.txPin := by
  unfold startLoop; split <;> rfl
@[simp] theorem startLoop_rxPin : (startLoop i).rxPin = i.rxPin := by
  unfold startLoop; split <;> rfl
@[simp] theorem startLoop_txBase : (startLoop i).txBase = i.txBase := by
  unfold startLoop; split <;> rfl
@[simp] theorem startLoop_txSize : (startLoop i).txSize = i.txSize := by
  unfold startLoop; split <;> rfl
@[simp] theorem startLoop_rxBase : (startLoop i).rxBase = i.rxBase := by
  unfold startLoop; split <;> rfl
@[simp] theorem startLoop_rxCap : (startLoop i).rxCap = i.rxCap := by
  unfold startLoop; split <;> rfl
@[simp] theorem startLoop_txLen : (startLoop i).txLen = i.txLen := by
  unfold startLoop; split <;> rfl
@[simp] theorem startLoop_txCur : (startLoop i).txCur = i.txCur := by
  unfold startLoop; split <;> rfl
@[simp] theorem startLoop_txTarget : (startLoop i).txTarget = i.txTarget := by
  unfold startLoop; split <;> rfl
@[simp] theorem startLoop_txGuard : (startLoop i).txGuard = i.txGuard := by
  unfold startLoop; split <;> rfl
@[simp] theorem startLoop_txLevel : (startLoop i).txLevel = i.txLevel := by
  unfold startLoop; split <;> rfl
@[simp] theorem startLoop_rxCur : (startLoop i).rxCur = i.rxCur := by
  unfold startLoop; split <;> rfl
@[simp] theorem startLoop_rxLast : (startLoop i).rxLast = i.rxLast := by
  unfold startLoop; split <;> rfl

/-! ### raise: respond after errorEffect -/

@[simp] theorem raise_clk (e : Status) : (raise e s).clk = s.clk := by simp [raise]
@[simp] theorem raise_clkStarted (e : Status) : (raise e s).clkStarted = s.clkStarted := by simp [raise]
@[simp] theorem raise_ticks (e : Status) : (raise e s).ticks = s.ticks := by simp [raise]
@[simp] theorem raise_insts (e : Status) : (raise e s).insts = s.insts := by simp [raise]
@[simp] theorem raise_shm (e : Status) : (raise e s).shm = s.shm := by simp [raise]
@[simp] theorem raise_bufTab (e : Status) : (raise e s).bufTab = s.bufTab := by simp [raise]
@[simp] theorem raise_pending (e : Status) : (raise e s).pending = s.pending := by simp [raise]
@[simp] theorem raise_turn (e : Status) : (raise e s).turn = s.turn := by simp [raise]
@[simp] theorem raise_response (e : Status) : (raise e s).response = some ⟨e, 0⟩ := rfl

/-! ### txFire and txStep: the fields no TX step writes -/

@[simp] theorem txReady_txPin (t : Word) : (txReady t i).txPin = i.txPin := by simp [txReady]
@[simp] theorem txReady_rxPin (t : Word) : (txReady t i).rxPin = i.rxPin := by simp [txReady]
@[simp] theorem txReady_txBase (t : Word) : (txReady t i).txBase = i.txBase := by simp [txReady]
@[simp] theorem txReady_txSize (t : Word) : (txReady t i).txSize = i.txSize := by simp [txReady]
@[simp] theorem txReady_rxBase (t : Word) : (txReady t i).rxBase = i.rxBase := by simp [txReady]
@[simp] theorem txReady_rxCap (t : Word) : (txReady t i).rxCap = i.rxCap := by simp [txReady]
@[simp] theorem txReady_txLen (t : Word) : (txReady t i).txLen = i.txLen := by simp [txReady]
@[simp] theorem txReady_rxCur (t : Word) : (txReady t i).rxCur = i.rxCur := by simp [txReady]
@[simp] theorem txReady_rxLast (t : Word) : (txReady t i).rxLast = i.rxLast := by simp [txReady]
@[simp] theorem txReady_running (t : Word) : (txReady t i).running = i.running := by simp [txReady]
@[simp] theorem txReady_loopActive (t : Word) : (txReady t i).loopActive = i.loopActive := by simp [txReady]
@[simp] theorem txReady_txCur (t : Word) : (txReady t i).txCur = i.txCur := by simp [txReady]
@[simp] theorem txReady_txLevel (t : Word) : (txReady t i).txLevel = i.txLevel := by simp [txReady]
@[simp] theorem txFire_txPin (m : Memory) : (txFire m i).txPin = i.txPin := by simp [txFire]
@[simp] theorem txFire_rxPin (m : Memory) : (txFire m i).rxPin = i.rxPin := by simp [txFire]
@[simp] theorem txFire_txBase (m : Memory) : (txFire m i).txBase = i.txBase := by simp [txFire]
@[simp] theorem txFire_txSize (m : Memory) : (txFire m i).txSize = i.txSize := by simp [txFire]
@[simp] theorem txFire_rxBase (m : Memory) : (txFire m i).rxBase = i.rxBase := by simp [txFire]
@[simp] theorem txFire_rxCap (m : Memory) : (txFire m i).rxCap = i.rxCap := by simp [txFire]
@[simp] theorem txFire_txLen (m : Memory) : (txFire m i).txLen = i.txLen := by simp [txFire]
@[simp] theorem txFire_rxCur (m : Memory) : (txFire m i).rxCur = i.rxCur := by simp [txFire]
@[simp] theorem txFire_rxLast (m : Memory) : (txFire m i).rxLast = i.rxLast := by simp [txFire]
@[simp] theorem txFire_running (m : Memory) : (txFire m i).running = i.running := by simp [txFire]
@[simp] theorem txFire_loopActive (m : Memory) : (txFire m i).loopActive = i.loopActive := by simp [txFire]
@[simp] theorem txFire_txCur (m : Memory) : (txFire m i).txCur = i.txCur + 1 := by simp [txFire]
@[simp] theorem txStep_txPin (m : Memory) (t : Word) : (txStep m t i).txPin = i.txPin := by
  unfold txStep; split <;> [rfl; split <;> simp]
@[simp] theorem txStep_rxPin (m : Memory) (t : Word) : (txStep m t i).rxPin = i.rxPin := by
  unfold txStep; split <;> [rfl; split <;> simp]
@[simp] theorem txStep_txBase (m : Memory) (t : Word) : (txStep m t i).txBase = i.txBase := by
  unfold txStep; split <;> [rfl; split <;> simp]
@[simp] theorem txStep_txSize (m : Memory) (t : Word) : (txStep m t i).txSize = i.txSize := by
  unfold txStep; split <;> [rfl; split <;> simp]
@[simp] theorem txStep_rxBase (m : Memory) (t : Word) : (txStep m t i).rxBase = i.rxBase := by
  unfold txStep; split <;> [rfl; split <;> simp]
@[simp] theorem txStep_rxCap (m : Memory) (t : Word) : (txStep m t i).rxCap = i.rxCap := by
  unfold txStep; split <;> [rfl; split <;> simp]
@[simp] theorem txStep_txLen (m : Memory) (t : Word) : (txStep m t i).txLen = i.txLen := by
  unfold txStep; split <;> [rfl; split <;> simp]
@[simp] theorem txStep_rxCur (m : Memory) (t : Word) : (txStep m t i).rxCur = i.rxCur := by
  unfold txStep; split <;> [rfl; split <;> simp]
@[simp] theorem txStep_rxLast (m : Memory) (t : Word) : (txStep m t i).rxLast = i.rxLast := by
  unfold txStep; split <;> [rfl; split <;> simp]
@[simp] theorem txStep_running (m : Memory) (t : Word) : (txStep m t i).running = i.running := by
  unfold txStep; split <;> [rfl; split <;> simp]
@[simp] theorem txStep_loopActive (m : Memory) (t : Word) : (txStep m t i).loopActive = i.loopActive := by
  unfold txStep; split <;> [rfl; split <;> simp]

end Sys2Proof.Machine
end

