-- ==== Sys2Proof/Laws/Steps.lean ====
section
/-! SUPPORT. What each shared operation can do, said once: the handle check, CREATE, the transmit and receive steps, the loop
step, and taking the next event. -/

namespace Sys2Proof.Machine

variable {s : State}

@[simp] theorem handleOf_toNat (h : Byte) : (handleOf h).toNat = h.toNat := by
  simp only [handleOf, BitVec.toNat_setWidth]
  exact Nat.mod_eq_of_lt (h.isLt.trans (by decide))

theorem inst_none_iff (g : Nat) : s.insts[g]? = none ↔ s.nInst ≤ g :=
  List.getElem?_eq_none_iff

theorem inst_lt {g : Nat} {i : Instance} (h : s.insts[g]? = some i) : g < s.nInst :=
  (List.getElem?_eq_some_iff.mp h).1

theorem withInstance_none {h : Byte} (act : Instance → State) (hs : s.nInst ≤ h.toNat) :
    withInstance h s act = raise .badHandle s := by
  rw [withInstance, handleOf_toNat, (inst_none_iff _).mpr hs]

theorem withInstance_some {h : Byte} {i : Instance} (act : Instance → State) (hs : s.insts[h.toNat]? = some i) :
    withInstance h s act = act i := by
  rw [withInstance, handleOf_toNat, hs]

/-- A command on a handle raises BAD_HANDLE or acts on the instance (R254). -/
theorem withInstance_cases (h : Byte) (act : Instance → State) :
    (s.nInst ≤ h.toNat ∧ withInstance h s act = raise .badHandle s) ∨
      ∃ i, s.insts[h.toNat]? = some i ∧ withInstance h s act = act i := by
  cases hi : s.insts[h.toNat]? with
  | none => exact .inl ⟨(inst_none_iff _).mp hi, withInstance_none act ((inst_none_iff _).mp hi)⟩
  | some i => exact .inr ⟨i, rfl, withInstance_some act hi⟩

theorem raise_eq_of_ne {e : Status} (he : e ≠ .capacityExhausted) (s : State) :
    raise e s = { s with response := some ⟨e, 0⟩ } := by
  cases e <;> first | rfl | exact absurd rfl he

theorem raise_capacityExhausted (s : State) :
    raise .capacityExhausted s = { s with fatal := true, response := some ⟨.capacityExhausted, 0⟩ } := rfl

/-- A descriptor `validBuffer` answers is the one BUFTAB maps the handle to, and none of its elements' addresses wraps (R61). -/
theorem validBuffer_eq_some {x : Word} {d : Descriptor} :
    validBuffer s x = some d ↔ s.bufTab.lookup x = some d ∧ d.base.toNat + d.length.toNat ≤ 2 ^ 32 := by
  simp [validBuffer, bufLookup, descriptorValid, Option.filter_eq_some_iff]

theorem rxCapacityOk_iff {c length : Word} :
    rxCapacityOk c length = true ↔ c ≠ 0 ∧ c.toNat % 2 = 0 ∧ c ≤ length := by
  have : c.extractLsb' 0 1 = 0 ↔ c.toNat % 2 = 0 := by
    rw [← BitVec.toNat_inj]; simp
  simp only [rxCapacityOk, Bool.and_eq_true, bne_iff_ne, ne_eq, beq_iff_eq, decide_eq_true_eq, this, and_assoc]

/-- CREATE ends in one of its four errors, tested in order, or makes an instance (R210, R259). -/
theorem createCommand_cases (p q : Byte) (a b c : Word) :
    (s.nInst = Config.maxInstances ∧ createCommand p q a b c s = raise .capacityExhausted s) ∨
    (s.nInst ≠ Config.maxInstances ∧ (validBuffer s a = none ∨ validBuffer s b = none) ∧
      createCommand p q a b c s = raise .badBuffer s) ∨
    (∃ tx rx, s.nInst ≠ Config.maxInstances ∧ validBuffer s a = some tx ∧ validBuffer s b = some rx ∧
      ((rxCapacityOk c rx.length = false ∧ createCommand p q a b c s = raise .rxCapacityInvalid s) ∨
       (rxCapacityOk c rx.length = true ∧ createCommand p q a b c s =
          respond .ok (BitVec.ofNat 32 s.nInst) (clockStart (addInstance (newInstance s.nInst p q tx rx c) s))))) := by
  unfold createCommand
  by_cases hn : s.nInst = Config.maxInstances
  · exact .inl ⟨hn, if_pos hn⟩
  · rw [if_neg hn]
    cases ha : validBuffer s a with
    | none => exact .inr (.inl ⟨hn, .inl rfl, rfl⟩)
    | some tx =>
      cases hb : validBuffer s b with
      | none => exact .inr (.inl ⟨hn, .inr rfl, rfl⟩)
      | some rx =>
        refine .inr (.inr ⟨tx, rx, hn, rfl, rfl, ?_⟩)
        cases hc : rxCapacityOk c rx.length <;> simp [hc]

/-- A TX step leaves an idle instance, fires once, or changes the target and the guard at most (R150, R158). -/
theorem txStep_cases (m : Memory) (t : Word) (i : Instance) :
    (i.txCur = i.txLen ∧ txStep m t i = i) ∨
    (i.txCur ≠ i.txLen ∧ txDue t (txReady t i) = true ∧ txStep m t i = txFire m (txReady t i)) ∨
    (i.txCur ≠ i.txLen ∧ txDue t (txReady t i) = false ∧ txStep m t i = txReady t i) := by
  unfold txStep txIdle
  by_cases h : i.txCur = i.txLen
  · simp [h]
  · cases hd : txDue t (txReady t i) <;> simp [h]

/-- An RX step records one edge or writes nothing (R183, R190). -/
theorem rxStep_cases (t : Word) (lvl : Level) (i : Instance) (m : Memory) :
    (edgeSeen i lvl = true ∧ rxStep t lvl i m = (rxAdvance t i, m.write (rxElemAddr i) (t - i.rxLast))) ∨
    (edgeSeen i lvl = false ∧ rxStep t lvl i m = (i, m)) := by
  unfold rxStep; cases edgeSeen i lvl <;> simp

/-- At cursor 0, TX steps 1 and 2 arm the schedule at the sample (R151). -/
theorem txReady_armed (t : Word) {i : Instance} (h : i.txCur = 0) : txReady t i = { i with txTarget := t, txGuard := 0 } := by
  simp [txReady, txArm, txDetectWrap, wrapSeen, h]

/-- At any other cursor they write the guard at most (R152). -/
theorem txReady_pending (t : Word) {i : Instance} (h : i.txCur ≠ 0) :
    txReady t i = { i with txGuard := (txReady t i).txGuard } := by
  simp only [txReady, txArm, if_neg h, txDetectWrap]; split <;> rfl

/-- A TX step writes no receive field, no constant and no flag (R150, R232). -/
theorem txStep_frame (m : Memory) (t : Word) (i : Instance) : txStep m t i = { i with
    txCur := (txStep m t i).txCur, txTarget := (txStep m t i).txTarget
    txGuard := (txStep m t i).txGuard, txLevel := (txStep m t i).txLevel } := by
  unfold txStep txFire txReady txDetectWrap txArm txClearGuard txAdvance pinWrite
  (repeat' split) <;> rfl

/-- An RX step writes the receive cursor and the last edge time at most (R183). -/
theorem rxStep_frame (t : Word) (lvl : Level) (i : Instance) (m : Memory) : (rxStep t lvl i m).1 = { i with
    rxCur := (rxStep t lvl i m).1.rxCur, rxLast := (rxStep t lvl i m).1.rxLast } := by
  obtain ⟨_, h⟩ | ⟨_, h⟩ := rxStep_cases t lvl i m <;> exact h ▸ rfl

/-- Bit 0 of a cursor is its remainder by 2. -/
theorem parity_eq_zero_iff (c : Word) : parity c = 0 ↔ c.toNat % 2 = 0 := by
  rw [← BitVec.toNat_inj]; simp [parity]

/-- The level of a transition: 1 at an even cursor, 0 at an odd one (R154). -/
theorem levelAt_eq (c : Word) : levelAt c = if c.toNat % 2 = 0 then 1 else 0 := by
  simp only [levelAt, parity_eq_zero_iff]

/-- An edge is a sample of 1 at an even cursor or a sample of 0 at an odd one (R185). -/
theorem edgeSeen_iff (i : Instance) (lvl : Level) : edgeSeen i lvl = true ↔ (i.rxCur.toNat % 2 = 0 ↔ lvl = 1) := by
  rw [edgeSeen, ← parity_eq_zero_iff]
  generalize parity i.rxCur = p
  revert p lvl
  decide

/-- Where the advance carries, the new target lies below the old one, and nowhere else (R157). -/
theorem noWrap_iff (d : Word) (i : Instance) :
    noWrap (txAdvance d i) = true ↔ i.txTarget.toNat + d.toNat < 2 ^ 32 := by
  simp only [noWrap, txAdvance, decide_eq_true_eq, BitVec.le_def, BitVec.toNat_add]
  have := i.txTarget.isLt
  have := d.isLt
  omega

/-- A loop step takes no step, leaves the loop, or runs one iteration (R231). -/
theorem loopStep_cases (h : Nat) (input : RxInput) :
    (loopStep h input s = s ∧ ∀ i, s.insts[h]? = some i → i.loopActive = false) ∨
    (∃ i, s.insts[h]? = some i ∧ i.loopActive = true ∧
      ((i.running = false ∧ loopStep h input s = s.setInst h (loopExit i)) ∨
       (i.running = true ∧
        loopStep h input s = storeIteration h (iteration s.clk (pinSample i input) i s.shm) s))) := by
  unfold loopStep
  cases hi : s.insts[h]? with
  | none => simp
  | some i => cases ha : i.loopActive <;> cases hr : i.running <;> simp [ha, hr, clockRead]

theorem step_of_pending {e : Event} {rest : List Event} (h : s.pending = e :: rest) :
    step s = perform e { s with pending := rest } := by
  simp [step, nextEvent, takeEvent, h]

theorem step_of_free (h : s.pending = []) :
    step s = perform (Config.freeEvent s.turn) { s with turn := s.turn + 1 } := by
  simp [step, nextEvent, takeEvent, h]

end Sys2Proof.Machine
end

