-- ==== Sys2Proof/Tests/Slice0.lean ====
section
/-! SUPPORT. Tests against the spec's own tables (30_encoding.md R101, 95_test_vectors.md V-...), each about one step, and for
every claim with hypotheses a witness that meets them. -/

namespace Sys2Proof.Tests

open Sys2Proof Sys2Proof.Machine

/-! ### Small states -/

/-- The instance of V-L1 with RX_LAST_INIT 100 and a tx buffer of four elements. -/
def sample : Instance :=
  ⟨3, 4, 0x100, 4, 0x200, 16, 0, 0, 0, 0, none, 0, 100, false, false⟩

/-- The sample instance with its loop running. -/
def live : Instance :=
  { sample with running := true, loopActive := true }

/-- A started machine with the given instances, and the given words listed in SHM. -/
def machine (insts : List Instance) (m : Memory := []) : State :=
  { State.reset with insts := insts, clk := 0x10, clkStarted := true, shm := m }

/-- The power-on machine with BUFTAB as V-L1, V-E3 and V-E4 give it. -/
def mapped : State :=
  { State.reset with bufTab := [(0, ⟨0x100, 4⟩), (1, ⟨0x200, 16⟩), (2, ⟨0xFFFFFFF0, 0x20⟩)] }

/-- A transmission at cursor `cur` of `len`, with the given target and guard, as the columns of V-X give it. -/
def transmitting (cur len target guard : Word) : Instance :=
  { live with txLen := len, txCur := cur, txTarget := target, txGuard := guard }

/-- A receive ring of `cap` at cursor `cur` with the given last edge time, as the columns of V-Y give it. -/
def receiving (cur cap last : Word) : Instance :=
  { live with rxCap := cap, rxCur := cur, rxLast := last }

/-- What the columns of V-X show of an instance: level, cursor, target, guard. -/
def txSeen (i : Instance) : Option Level × Word × Word × Word :=
  (i.txLevel, i.txCur, i.txTarget, i.txGuard)

/-- The TX step at sample t with element d at cursor 0, 1, 2, 3 or 4 of the sample's tx buffer. -/
def txTest (i : Instance) (t d : Word) : Option Level × Word × Word × Word :=
  txSeen (txStep [(0x100, d), (0x101, d), (0x102, d), (0x103, d), (0x104, d)] t i)

theorem mapped_has_room : mapped.nInst ≠ Config.maxInstances := (Nat.succ_ne_zero _).symm

/-- A machine that holds MAX_INSTANCES instances. -/
def full : State :=
  { mapped with insts := List.replicate Config.maxInstances sample, clkStarted := true }

theorem full_is_full : full.nInst = Config.maxInstances := by simp [full, State.nInst]

/-! ### Ill-formed frames, one per check (V-D2, V-D4 to V-D6, V-D8, V-D9, V-D12 to V-D14) -/

theorem test_ill_formed_opcode_zero : (Fields.mk 0 0 0 0 0 0 0).wellFormed = false := by decide
theorem test_ill_formed_opcode_nine : (Fields.mk 9 0 0 0 0 0 0).wellFormed = false := by decide
theorem test_ill_formed_opcode_top : (Fields.mk 0xFF 0 0 0 0 0 0).wellFormed = false := by decide
theorem test_ill_formed_create_h : (Fields.mk 1 1 0 0 0 1 0x10).wellFormed = false := by decide
theorem test_ill_formed_enable_p0 : (Fields.mk 2 0 1 0 0 0 0).wellFormed = false := by decide
theorem test_ill_formed_disable_p1 : (Fields.mk 3 0 0 1 0 0 0).wellFormed = false := by decide
theorem test_ill_formed_enabled_a : (Fields.mk 4 0 0 0 1 0 0).wellFormed = false := by decide
theorem test_ill_formed_tx_start_b : (Fields.mk 5 0 0 0 4 1 0).wellFormed = false := by decide
theorem test_ill_formed_tx_cursor_c : (Fields.mk 6 0 0 0 0 0 0x80000000).wellFormed = false := by decide
theorem test_well_formed_create_all_ones : (Fields.mk 1 0 0xFF 0xFF (-1) (-1) (-1)).wellFormed = true := by decide

/-! ### Words written out from R90 to R93 (R101, V-D) -/

theorem test_decode_create :
    decode 0x00000010000000010000000004030001 = some (.create 3 4 0 1 16) := by decide
theorem test_decode_create_all_ones : decode 0xFFFFFFFFFFFFFFFFFFFFFFFFFFFF0001 =
    some (.create 0xFF 0xFF 0xFFFFFFFF 0xFFFFFFFF 0xFFFFFFFF) := by decide
theorem test_decode_enable : decode 0x00000000000000000000000000000002 = some (.enable 0) := by decide
theorem test_decode_disable : decode 0x00000000000000000000000000000103 = some (.disable 1) := by decide
theorem test_decode_enabled : decode 0x00000000000000000000000000000004 = some (.enabled 0) := by decide
theorem test_decode_tx_start :
    decode 0x0000000000000000FFFFFFFF00000005 = some (.txStart 0 0xFFFFFFFF) := by decide
theorem test_decode_tx_cursor : decode 0x00000000000000000000000000000206 = some (.txCursor 2) := by decide
theorem test_decode_rx_cursor : decode 0x0000000000000000000000000000FF07 = some (.rxCursor 255) := by decide
theorem test_decode_rx_reset : decode 0x00000000000000000000000000000008 = some (.rxReset 0) := by decide
theorem test_decode_rejects_top_bit : decodeOrReject 0x80000000000000000000000000000006 = .error .reservedField := by
  rfl
theorem test_decode_rejects_opcode : decodeOrReject 0x000000000000000000000000000000FF = .error .illegalOpcode := by
  rfl
theorem test_table_word : decodeTableWord 128 0x00000010000000010000000004030001 = some (.create 3 4 0 1 16) := by decide
theorem test_encode_tx_start : encode (.txStart 0 4) = 0x00000000000000000000000400000005 := by decide

/-! ### Commands (V-L, V-T, V-R, V-E) -/

/-- V-L1: the draws are left as they are. -/
theorem test_create : exec (.create 3 4 0 1 16) mapped = .next { mapped with
    insts := [{ sample with rxLast := Config.rxLastInit 0 }], clk := Config.clkEpoch, clkStarted := true
    response := some ⟨.ok, 0⟩ } := by
  simp only [exec, execCreate, createCommand, if_neg mapped_has_room]
  rfl

/-- V-E2: an unknown buffer is refused before the capacity is looked at. -/
theorem test_create_bad_buffer : exec (.create 3 4 7 7 3) mapped =
    .next { mapped with response := some ⟨.badBuffer, 0⟩ } := by
  simp only [exec, execCreate, createCommand, if_neg mapped_has_room]
  rfl

/-- V-E1: the capacity is tested first, and the fatal flag is set. -/
theorem test_create_full : exec (.create 3 4 7 7 3) full =
    .next { full with fatal := true, response := some ⟨.capacityExhausted, 0⟩ } := by
  simp only [exec, execCreate, createCommand, if_pos full_is_full]
  rfl

/-- V-L2. -/
theorem test_enable : exec (.enable 0) (machine [sample]) =
    .next { machine [live] with response := some ⟨.ok, 0⟩ } := rfl
/-- V-L3: still one engine. -/
theorem test_enable_running : exec (.enable 0) (machine [{ live with loopActive := false }]) =
    .next { machine [{ live with loopActive := false }] with response := some ⟨.ok, 0⟩ } := rfl
/-- V-L4. -/
theorem test_disable : exec (.disable 0) (machine [live]) =
    .next { machine [{ live with running := false }] with response := some ⟨.ok, 0⟩ } := rfl
/-- V-L8. -/
theorem test_enabled : exec (.enabled 0) (machine [live]) = .next { machine [live] with response := some ⟨.ok, 1⟩ } := rfl
/-- V-L9: ENABLED reports `running`. -/
theorem test_enabled_while_leaving : exec (.enabled 0) (machine [{ live with running := false }]) =
    .next { machine [{ live with running := false }] with response := some ⟨.ok, 0⟩ } := rfl
/-- V-T2: target, guard and level stay. -/
theorem test_tx_start : exec (.txStart 0 2) (machine [{ transmitting 2 4 7 9 with txLevel := some 1 }]) =
    .next { machine [{ transmitting 0 2 7 9 with txLevel := some 1 }] with response := some ⟨.ok, 0⟩ } := rfl
/-- V-T3. -/
theorem test_tx_start_too_long : exec (.txStart 0 5) (machine [sample]) =
    .next { machine [sample] with response := some ⟨.txLengthInvalid, 0⟩ } := rfl
/-- V-T5. -/
theorem test_tx_cursor : exec (.txCursor 0) (machine [transmitting 3 4 0 0]) =
    .next { machine [transmitting 3 4 0 0] with response := some ⟨.ok, 3⟩ } := rfl
/-- V-E6: BAD_HANDLE is tested before the length. -/
theorem test_tx_start_bad_handle : exec (.txStart 2 9) (machine [sample]) =
    .next { machine [sample] with response := some ⟨.badHandle, 0⟩ } := rfl
/-- V-R3. -/
theorem test_rx_cursor : exec (.rxCursor 0) (machine [receiving 2 16 5]) =
    .next { machine [receiving 2 16 5] with response := some ⟨.ok, 2⟩ } := rfl
/-- V-R1. -/
theorem test_rx_reset : exec (.rxReset 0) (machine [receiving 5 16 77]) =
    .next { machine [receiving 0 16 77] with response := some ⟨.ok, 0⟩ } := rfl
/-- V-R4. -/
theorem test_rx_reset_no_instance : exec (.rxReset 0) (machine []) =
    .next { machine [] with response := some ⟨.badHandle, 0⟩ } := rfl
/-- V-E7: an illegal frame is refused before its handle is looked at. -/
theorem test_illegal_before_bad_handle : performCommand 0x00000000000000010000000900000205 (machine [sample]) =
    .next { machine [sample] with response := some ⟨.illegalCommand, 0⟩ } := rfl
/-- V-E8: commands work after the fatal error. -/
theorem test_command_after_fatal : exec (.txCursor 0) { machine [live, sample] with fatal := true } =
    .next { machine [live, sample] with fatal := true, response := some ⟨.ok, 0⟩ } := rfl
/-- The first step after reset runs the frame placed for it. -/
theorem test_fetch_word : step (State.reset.withFetchWord 128 0x0000FF07) =
    .next { State.reset with response := some ⟨.badHandle, 0⟩ } := rfl

/-! ### The clock (V-C5) -/

theorem test_tick_wraps : perform .tick { machine [] with clk := 0xFFFFFFFF } =
    .next { machine [] with clk := 0, ticks := 1 } := rfl

/-! ### The TX step (V-X) -/

theorem test_x1 : txTest (transmitting 0 4 0xDEAD 0xBEEF) 0x1234 0xA = (some 1, 1, 0x123E, 0) := by decide
theorem test_x2 : txTest (transmitting 1 4 0x2000 0) 0x1FFF 0x500 = (none, 1, 0x2000, 0) := by decide
theorem test_x4 : txTest (transmitting 1 4 0x2000 0) 0x2100 0x500 = (some 0, 2, 0x2500, 0) := by decide
theorem test_x5 : txTest (transmitting 1 4 0xFFFFFF00 0) 0xFFFFFF10 0x200 = (some 0, 2, 0x100, 0xFFFFFF00) := by decide
theorem test_x6 : txTest (transmitting 2 4 0x100 0xFFFFFF00) 0xFFFFFFF0 0x30 = (none, 2, 0x100, 0xFFFFFF00) := by decide
theorem test_x7 : txTest (transmitting 2 4 0x100 0xFFFFFF00) 0x50 0x30 = (none, 2, 0x100, 0) := by decide
theorem test_x8 : txTest (transmitting 2 4 0x100 0xFFFFFF00) 0x120 0x30 = (some 1, 3, 0x130, 0) := by decide
theorem test_x10 : txTest (transmitting 1 4 0x10 0) 0x10 0 = (some 0, 2, 0x10, 0) := by decide
theorem test_x11 : txTest (transmitting 1 4 0x10 0) 0x10 0xFFFFFFFF = (some 0, 2, 0xF, 0x10) := by decide
theorem test_x13 : txTest (transmitting 0 0 0x55 0x66) 0x77 9 = (none, 0, 0x55, 0x66) := by decide
theorem test_x15 : txTest (transmitting 4 6 0x48 0) 0x48 8 = (some 1, 5, 0x50, 0) := by decide
theorem test_x17 : txTest (transmitting 0 3 0 0) 0xFFFFFFFF 1 = (some 1, 1, 0, 0xFFFFFFFF) := by decide
theorem test_x19 : txTest (transmitting 1 4 1 2) 2 8 = (none, 1, 1, 2) := by decide
theorem test_x20 : txTest (transmitting 1 4 1 2) 1 8 = (some 0, 2, 9, 0) := by decide

/-! ### The RX step (V-Y) -/

theorem test_y1 (m : Memory) : rxStep 150 0 (receiving 0 16 100) m = (receiving 0 16 100, m) := rfl
theorem test_y2 (m : Memory) : rxStep 150 1 (receiving 0 16 100) m = (receiving 1 16 150, m.write 0x200 50) := rfl
theorem test_y4 (m : Memory) : rxStep 150 0 (receiving 1 16 100) m = (receiving 2 16 150, m.write 0x201 50) := rfl
theorem test_y5 (m : Memory) :
    rxStep 0x10 1 (receiving 2 16 0xFFFFFFF0) m = (receiving 3 16 0x10, m.write 0x202 0x20) := rfl
theorem test_y6 (m : Memory) : rxStep 600 0 (receiving 15 16 500) m = (receiving 0 16 600, m.write 0x20F 100) := rfl

/-! ### The loop step (V-L5) -/

theorem test_loop_exit : perform (.iter 0 (.line 1)) (machine [{ live with running := false }]) =
    .next (machine [sample]) := rfl
theorem test_loop_idle_low : perform (.iter 0 (.line 0)) (machine [live]) = .next (machine [live]) := rfl

/-! ### Witnesses: for each claim with hypotheses, values that meet them all -/

theorem test_witness_EncodeInvertsDecode : decode 0x00000103 = some (.disable 1) := by decide

theorem test_witness_FrameMatchesAtMostOneRow :
    txStartRow ∈ opcodeRows ∧ rowMatches txStartRow 0x0000000000000000FFFFFFFF0000FF05 = true := by decide

theorem test_witness_DecodesExactlyTheWellFormedFrames :
    (Fields.mk 8 0xFF 0 0 0 0 0).wellFormed = true ∧ (Fields.mk 9 0 0 0 0 0 0).opcodeDefined = false ∧
    (Fields.mk 8 0 0 0 0 0 1).opcodeDefined = true ∧ (Fields.mk 8 0 0 0 0 0 1).reservedZero = false := by decide

theorem test_witness_StepRunsTheDecodedCommand :
    (State.reset.withFetchWord 128 0x00000103).pending = .command 0x00000103 :: [] ∧
    decode 0x00000103 = some (.disable 1) := by decide

theorem test_witness_StepTakesTheNextEvent :
    (deliver 0 State.reset).pending = .command 0 :: [] ∧ State.reset.pending = [] := by decide

theorem test_witness_IllegalFrameIsAnsweredAndWritesNothing :
    (Fields.mk 2 0 0 0 1 0 0).wellFormed = false ∧ (Fields.mk 0 0 0 0 0 0 0).wellFormed = false := by decide

theorem mapsTo_of {x : Word} {d : Descriptor} (h : mapped.bufTab.lookup x = some d ∧ d.base.toNat + d.length.toNat ≤ 2 ^ 32) :
    MapsTo mapped x d := h

theorem test_witness_CreateMeaning_capacity : full.nInst = Config.maxInstances := full_is_full

/-- V-E2, V-E3: a handle that BUFTAB does not map, and one whose descriptor passes the top of SHM. -/
theorem test_witness_CreateMeaning_bad_buffer : mapped.nInst ≠ Config.maxInstances ∧
    (∀ d, ¬ MapsTo mapped 7 d) ∧ ∀ d, ¬ MapsTo mapped 2 d := by
  refine ⟨mapped_has_room, fun d h => by simp [MapsTo, mapped, List.lookup] at h, fun d h => ?_⟩
  have h1 : some (⟨0xFFFFFFF0, 0x20⟩ : Descriptor) = some d := h.1
  cases h1
  exact absurd h.2 (by decide)

/-- V-E4: the capacities 15, 0 and 18 for a buffer of 16. -/
theorem test_witness_CreateMeaning_capacity_invalid : mapped.nInst ≠ Config.maxInstances ∧
    MapsTo mapped 0 ⟨0x100, 4⟩ ∧ MapsTo mapped 1 ⟨0x200, 16⟩ ∧
    ((0 : Word) = 0 ∧ (15 : Word).toNat % 2 = 1 ∧ (16 : Word) < 18) :=
  ⟨mapped_has_room, mapsTo_of (by decide), mapsTo_of (by decide), by decide⟩

/-- V-E5: the capacity may equal the buffer length. -/
theorem test_witness_CreateMeaning_ok : mapped.nInst ≠ Config.maxInstances ∧
    MapsTo mapped 0 ⟨0x100, 4⟩ ∧ MapsTo mapped 1 ⟨0x200, 16⟩ ∧
    (16 : Word) ≠ 0 ∧ (16 : Word).toNat % 2 = 0 ∧ (16 : Word) ≤ 16 :=
  ⟨mapped_has_room, mapsTo_of (by decide), mapsTo_of (by decide), by decide⟩

/-- The encodings' premise on the opcode, one frame for each command; CREATE, a command that uses H alone, and TX_START each
with a field they do not use set. -/
theorem test_witness_encodings : (Fields.mk 1 0 3 4 0 1 16).op = 0x01 ∧ (Fields.mk 1 1 0 0 0 0 0).h ≠ 0 ∧
    (Fields.mk 2 0 0 0 0 0 0).op = 0x02 ∧ (Fields.mk 3 1 0 0 0 0 0).op = 0x03 ∧ (Fields.mk 4 0 0 0 0 0 0).op = 0x04 ∧
    (Fields.mk 5 0 0 0 4 0 0).op = 0x05 ∧ (Fields.mk 5 0 0 0 4 1 0).b ≠ 0 ∧ (Fields.mk 6 2 0 0 0 0 0).op = 0x06 ∧
    (Fields.mk 7 0 0 0 0 0 0).op = 0x07 ∧ (Fields.mk 8 0 0 0 0 0 0).op = 0x08 ∧
    onlyH ⟨2, 0, 0, 0, 0, 0, 0⟩ = true ∧ onlyH ⟨2, 0, 1, 0, 0, 0, 0⟩ = false := by decide

/-- AnswersBadHandle at the first handle past the last instance, and at the largest handle. -/
theorem test_witness_AnswersBadHandle :
    (machine [sample]).nInst ≤ (1 : Byte).toNat ∧ (machine [sample]).nInst ≤ (255 : Byte).toNat := by decide

/-- The commands on a handle (EnableMeaning, DisableMeaning, EnabledMeaning, TxCursorMeaning, RxCursorMeaning, RxResetMeaning)
at an instance whose loop runs and at one whose loop does not. -/
theorem test_witness_handle_commands :
    (machine [sample, live]).insts[(0 : Byte).toNat]? = some sample ∧
    (machine [sample, live]).insts[(1 : Byte).toNat]? = some live ∧ sample.running = false ∧ live.running = true := by decide

/-- A length at the buffer's size, and the next larger one. -/
theorem test_witness_TxStartMeaning : (machine [sample]).insts[(0 : Byte).toNat]? = some sample ∧
    (4 : Word) ≤ sample.txSize ∧ sample.txSize < 5 := by decide

theorem test_witness_RepeatedControlIsIdempotent :
    (∃ t, exec (.rxReset 0) (machine [receiving 5 16 0]) = .next t) ∧ (∃ t, exec (.enable 0) (machine [sample]) = .next t) ∧
    ∃ t, exec (.disable 0) (machine [live]) = .next t := ⟨⟨_, rfl⟩, ⟨_, rfl⟩, ⟨_, rfl⟩⟩

/-- One error of each effect: a bad handle, and the fatal one. -/
theorem test_witness_FailedCommandWritesNothing :
    performCommand 0x00000103 (machine [sample]) = .next { machine [sample] with response := some ⟨.badHandle, 0⟩ } ∧
    performCommand 0x00000010000000010000000004030001 full =
      .next { full with fatal := true, response := some ⟨.capacityExhausted, 0⟩ } := by
  refine ⟨rfl, ?_⟩
  rw [performCommand, test_decode_create]
  simp only [exec, execCreate, createCommand, if_pos full_is_full]
  rfl

theorem test_witness_QueriesLeaveTheMachineAlone :
    (∃ t, exec (.enabled 0) (machine [live]) = .next t) ∧ (∃ t, exec (.txCursor 1) (machine [live]) = .next t) ∧
    ∃ t, exec (.rxCursor 0) (machine [live]) = .next t := ⟨⟨_, rfl⟩, ⟨_, rfl⟩, ⟨_, rfl⟩⟩

theorem test_witness_ControlsWriteOnlyTheirOwnFields :
    (machine [sample, live]).insts[(0 : Byte).toNat]? = some sample ∧ (1 : Nat) ≠ (0 : Byte).toNat ∧
    (∃ t, exec (.enable 0) (machine [sample, live]) = .next t ∧ ∃ j, t.insts[(0 : Byte).toNat]? = some j) ∧
    (∃ t, exec (.disable 0) (machine [sample, live]) = .next t ∧ ∃ j, t.insts[(0 : Byte).toNat]? = some j) ∧
    (∃ t, exec (.txStart 0 4) (machine [sample, live]) = .next t ∧ ∃ j, t.insts[(0 : Byte).toNat]? = some j) ∧
    ∃ t, exec (.rxReset 0) (machine [sample, live]) = .next t ∧ ∃ j, t.insts[(0 : Byte).toNat]? = some j :=
  ⟨rfl, by decide, ⟨_, rfl, _, rfl⟩, ⟨_, rfl, _, rfl⟩, ⟨_, rfl, _, rfl⟩, ⟨_, rfl, _, rfl⟩⟩

/-- A CREATE that makes the first instance, and one that is refused with an instance in place and the clock started. -/
theorem test_witness_CreateLeavesTheRestAlone :
    (∃ t, exec (.create 3 4 0 1 16) mapped = .next t ∧ t.nInst = mapped.nInst + 1) ∧
    (∃ t, exec (.create 3 4 7 7 3) full = .next t ∧ t.nInst = full.nInst) ∧ 0 < full.nInst ∧ full.clkStarted = true :=
  ⟨⟨_, test_create, rfl⟩, ⟨_, test_create_full, rfl⟩, by rw [full_is_full]; exact Nat.succ_pos _, rfl⟩

/-! #### Invariants and whole-machine rules -/

theorem live_inv : InstanceInv live := by constructor <;> decide

/-- A machine with a running instance, about to take a loop step. -/
def looping : State :=
  { machine [live] with pending := [.iter 0 (.line 1)] }

theorem looping_inv : Inv looping where
  insts i hi := by
    rw [List.mem_singleton.mp hi]
    exact live_inv
  started := by decide
  count := Nat.succ_le_succ (Nat.zero_le _)
  memory := wf_nil

theorem test_witness_StepKeepsTheInvariant : Inv looping ∧ ∃ t, step looping = .next t :=
  ⟨looping_inv, _, rfl⟩

/-- A guard in place: the target 0x100 wrapped past 0xFFFFFF00 (V-X6). -/
theorem test_witness_StepKeepsGuardsAboveTheirTargets :
    GuardInv { looping with insts := [transmitting 2 4 0x100 0xFFFFFF00] } ∧
    (transmitting 2 4 0x100 0xFFFFFF00).txGuard ≠ 0 ∧
    ∃ t, step { looping with insts := [transmitting 2 4 0x100 0xFFFFFF00] } = .next t := by
  refine ⟨fun i hi _ => ?_, by decide, _, rfl⟩
  rw [List.mem_singleton.mp hi]
  decide

theorem test_witness_StepKeepsTheClockLaw :
    ClockLaw { machine [live] with clk := Config.clkEpoch + BitVec.ofNat 32 3, ticks := 3, pending := [.tick] } ∧
    ∃ t, step { machine [live] with clk := Config.clkEpoch + BitVec.ofNat 32 3, ticks := 3, pending := [.tick] } = .next t :=
  ⟨⟨fun _ => rfl, nofun⟩, _, rfl⟩

/-- A started clock that ticks, and one that the next step starts. -/
theorem test_witness_OnlyTicksAndTheStartMoveTheClock :
    (machine [live]).clkStarted = true ∧ (∃ t, step { machine [live] with pending := [.tick] } = .next t) ∧
    mapped.clkStarted = false ∧ ∃ t, step (mapped.withFetchWord 128 0x00000010000000010000000004030001) = .next t ∧
      t.clkStarted = true := by
  refine ⟨rfl, ⟨_, rfl⟩, rfl, { mapped with
    insts := [{ sample with rxLast := Config.rxLastInit 0 }], clk := Config.clkEpoch, clkStarted := true
    response := some ⟨.ok, 0⟩ }, ?_, rfl⟩
  · rw [← test_create, ← show performCommand 0x00000010000000010000000004030001 mapped = exec (.create 3 4 0 1 16) mapped by
      rw [performCommand, test_decode_create]]
    rfl

theorem test_witness_FatalIsStickyAndOnlyCreateSetsIt :
    (∃ t, step { machine [live] with fatal := true, pending := [.tick] } = .next t) ∧
    full.fatal = false ∧ ∃ t, step (deliver 0x00000010000000010000000004030001 full) = .next t ∧ t.fatal = true := by
  refine ⟨⟨_, rfl⟩, rfl, { full with fatal := true, response := some ⟨.capacityExhausted, 0⟩ }, ?_, rfl⟩
  rw [← test_witness_FailedCommandWritesNothing.2]
  rfl

theorem test_witness_InstancesPersistWithTheirBindings :
    looping.insts[0]? = some live ∧ ∃ t, step looping = .next t := ⟨rfl, _, rfl⟩

theorem test_witness_TickAddsOne : (machine []).clkStarted = true ∧ State.reset.clkStarted = false := by decide

/-- V-C8: the counter passes 2^32 between the two samples. -/
theorem test_witness_ElapsedTicksAreTheDifference :
    ({ machine [] with clk := 0xFFFFFFFF, pending := List.replicate 2 .tick ++ [.poke 0 0] } : State).clkStarted = true ∧
    ({ machine [] with clk := 0xFFFFFFFF, pending := List.replicate 2 .tick ++ [.poke 0 0] } : State).pending =
      List.replicate 2 .tick ++ [.poke 0 0] := ⟨rfl, rfl⟩

/-! #### Transmit -/

/-- The cases at their boundary values: idle; cursor 0; due with no guard and due below a guard; not due; guarded. -/
theorem test_witness_TxStepMeaning :
    (transmitting 4 4 0x100 0).txCur = (transmitting 4 4 0x100 0).txLen ∧
    ((transmitting 0 4 0 0).txCur ≠ (transmitting 0 4 0 0).txLen ∧ (transmitting 0 4 0 0).txCur = 0) ∧
    ((transmitting 1 4 0x10 0).txCur ≠ 4 ∧ (transmitting 1 4 0x10 0).txGuard = 0 ∧ (transmitting 1 4 0x10 0).txTarget ≤ 0x10) ∧
    ((transmitting 1 4 1 2).txCur ≠ 4 ∧ (transmitting 1 4 1 2).txCur ≠ 0 ∧ (1 : Word) < (transmitting 1 4 1 2).txGuard ∧
      (transmitting 1 4 1 2).txTarget ≤ 1) ∧
    ((0 : Word) < (transmitting 1 4 1 2).txGuard ∧ (0 : Word) < (transmitting 1 4 1 2).txTarget) ∧
    ((transmitting 1 4 1 2).txGuard ≠ 0 ∧ (transmitting 1 4 1 2).txGuard ≤ 2) := by decide

/-- A record that meets R32 with its transmit cursor at the last element of its buffer. -/
theorem test_witness_EveryAddressLiesInItsBuffer : InstanceInv (transmitting 3 4 0 0) ∧
    (transmitting 3 4 0 0).txCur ≠ (transmitting 3 4 0 0).txLen := ⟨by constructor <;> decide, by decide⟩

/-- At the due time itself, at cursor 0, and by way of a guard the sample clears; before the due time, and with a guard kept. -/
theorem test_witness_DueTransitionFires :
    ((transmitting 1 4 0x10 0).txCur ≠ (transmitting 1 4 0x10 0).txLen ∧ (txReady 0x10 (transmitting 1 4 0x10 0)).txGuard = 0 ∧
      (txReady 0x10 (transmitting 1 4 0x10 0)).txTarget ≤ 0x10) ∧
    ((txReady 9 (transmitting 0 4 0x55 0x66)).txGuard = 0 ∧ (txReady 9 (transmitting 0 4 0x55 0x66)).txTarget ≤ 9) ∧
    ((txReady 1 (transmitting 1 4 1 2)).txGuard = 0 ∧ (txReady 1 (transmitting 1 4 1 2)).txTarget ≤ 1) ∧
    (0xF : Word) < (txReady 0xF (transmitting 1 4 0x10 0)).txTarget ∧ (txReady 2 (transmitting 1 4 1 2)).txGuard ≠ 0 := by
  decide

/-- A carry, by the smallest amount, and the largest sum without one. -/
theorem test_witness_GuardKeptExactlyOnCarry :
    (txClearGuard (txAdvance 1 (transmitting 1 4 0xFFFFFFFF 0))).txGuard = 0xFFFFFFFF ∧
    (txClearGuard (txAdvance 0 (transmitting 1 4 0xFFFFFFFF 0))).txGuard = 0 := by decide

theorem test_witness_FirstTransitionFiresAtOnce :
    (machine [live]).insts[(0 : Byte).toNat]? = some live ∧ live.running = true ∧ live.loopActive = true ∧
    (4 : Word) ≠ 0 ∧ (4 : Word) ≤ live.txSize := by decide

theorem test_witness_StaleTargetAndGuardAreUnobservable :
    (transmitting 0 4 0xDEAD 0xBEEF).txCur = 0 ∧ (transmitting 0 4 0xDEAD 0xBEEF).txLen ≠ 0 := by decide

theorem test_witness_TransmissionKeepsTheAbsoluteSchedule :
    (transmitting 0 1 0xDEAD 0xBEEF).txCur = 0 ∧ (transmitting 0 1 0xDEAD 0xBEEF).txLen ≠ 0 := by decide

/-- A transmission about to begin, and V-X5's after its first transition at 0xFFFFFF00 - 8 with the element 8. -/
theorem test_witness_TxStepKeepsTheSchedule :
    ((transmitting 0 4 0 0).txCur ≤ 4 ∧ (transmitting 0 4 0 0).txCur = 0 ∧ (transmitting 0 4 0 0).txLen ≠ 0) ∧
    (transmitting 1 4 0xFFFFFF00 0).txCur ≤ 4 ∧
    OnSchedule 0xFFFFFEF8 [8] { transmitting 1 4 0xFFFFFF00 0 with txLevel := some 1 } :=
  ⟨by decide, by decide, by constructor <;> decide⟩

/-- V-X16. -/
theorem test_witness_LastIntervalIsNotWaitedOut :
    (transmitting 3 4 0x40 0).txCur ≠ (transmitting 3 4 0x40 0).txLen ∧
    (transmitting 3 4 0x40 0).txCur + 1 = (transmitting 3 4 0x40 0).txLen ∧
    (txStep [(0x103, 8)] 0x41 (transmitting 3 4 0x40 0)).txCur = (transmitting 3 4 0x40 0).txCur + 1 := by decide

/-- V-X18 and V-X19. -/
theorem test_witness_MissedWindowsDelayATransition :
    (transmitting 1 4 0xFFFFFFF4 0).txCur ≠ (transmitting 1 4 0xFFFFFFF4 0).txLen ∧
    (transmitting 1 4 0xFFFFFFF4 0).txCur ≠ 0 ∧ (transmitting 1 4 0xFFFFFFF4 0).txGuard = 0 ∧
    (∀ t ∈ [3, 0xFFFFFFF3], t < (transmitting 1 4 0xFFFFFFF4 0).txTarget) ∧
    (transmitting 1 4 1 2).txGuard ≠ 0 ∧ ∀ t ∈ [2, 0xFFFFFFFF], (transmitting 1 4 1 2).txGuard ≤ t := by
  refine ⟨by decide, by decide, by decide, fun t ht => ?_, by decide, fun t ht => ?_⟩ <;> fin_cases ht <;> decide

/-- Intervals of 20 ticks from time 100, sampled every 5 ticks: no due time wraps. -/
theorem test_witness_PolledTransmissionIsOnTime : (transmitting 0 2 0 0).txCur = 0 ∧ (transmitting 0 2 0 0).txLen ≠ 0 ∧
    PolledWithin 10 2 [(0x100, 20)] (transmitting 0 2 0 0) (fun l => 100 + 5 * l) 6 := by
  refine ⟨by decide, by decide, by decide, fun l _ => Nat.add_le_add_left (by omega) _, fun l _ => by show _ + _ ≤ _ + _ + _; omega, fun k hk => ?_,
    fun k h1 h2 => ?_, fun k hk => ?_⟩
  · obtain rfl : k = 0 := by omega
    decide
  · obtain rfl : k = 1 := by omega
    decide
  · obtain rfl : k = 0 := by omega
    decide

/-- An interval of 100 ticks from 50 ticks before the wrap: the second due time lies past it, and the guard is used. -/
theorem test_witness_PolledTransmissionIsOnTime_wrap :
    PolledWithin 50 3 [(0x100, 100), (0x101, 100)] (transmitting 0 3 0 0) (fun l => 4294967246 + 50 * l) 4 ∧
    2 ^ 32 ≤ dueAt [(0x100, 100), (0x101, 100)] (transmitting 0 3 0 0) (fun l => 4294967246 + 50 * l) 0 % 2 ^ 32 +
      (txElem [(0x100, 100), (0x101, 100)] (transmitting 0 3 0 0) 0).toNat := by
  refine ⟨⟨by decide, fun l _ => Nat.add_le_add_left (by omega) _, fun l _ => by show _ + _ ≤ _ + _ + _; omega, fun k hk => ?_, fun k h1 h2 => ?_,
    fun k hk => ?_⟩, by decide⟩
  · obtain rfl | rfl : k = 0 ∨ k = 1 := by omega
    · decide
    · decide
  · obtain rfl | rfl : k = 1 ∨ k = 2 := by omega
    · decide
    · decide
  · obtain rfl | rfl : k = 0 ∨ k = 1 := by omega
    · decide
    · decide

/-- Two memories that agree on element 1 alone, a fire, and the three ways not to fire. -/
theorem test_witness_TxStepReadsOnlyTheElementAtItsCursor :
    Memory.read [(0x101, 8)] ((transmitting 1 4 0x10 0).txBase + (transmitting 1 4 0x10 0).txCur) =
      Memory.read [(0x101, 8), (0x102, 9)] ((transmitting 1 4 0x10 0).txBase + (transmitting 1 4 0x10 0).txCur) ∧
    (transmitting 4 4 0x10 0).txCur = (transmitting 4 4 0x10 0).txLen ∧ (txReady 2 (transmitting 1 4 1 2)).txGuard ≠ 0 ∧
    (0xF : Word) < (txReady 0xF (transmitting 1 4 0x10 0)).txTarget := by decide

/-! #### Receive -/

/-- Both parities with each level (V-Y1 to V-Y4). -/
theorem test_witness_RxStepMeaning :
    ((receiving 0 16 100).rxCur.toNat % 2 = 0 ↔ (1 : Level) = 1) ∧ ((receiving 15 16 100).rxCur.toNat % 2 = 0 ↔ (0 : Level) = 1) ∧
    ¬ ((receiving 0 16 100).rxCur.toNat % 2 = 0 ↔ (0 : Level) = 1) ∧
    ¬ ((receiving 1 16 100).rxCur.toNat % 2 = 0 ↔ (1 : Level) = 1) := by decide

/-- V-Y5, with the samples unwrapped. -/
theorem test_witness_RecordHoldsTheElapsedTicks :
    0xFFFFFFF0 ≤ 0x100000010 ∧ (receiving 2 16 0xFFFFFFF0).rxLast = BitVec.ofNat 32 0xFFFFFFF0 ∧
    edgeSeen (receiving 2 16 0xFFFFFFF0) 1 = true := by decide

theorem test_witness_CursorParityFollowsTheLine :
    (receiving 15 16 0).rxCur < (receiving 15 16 0).rxCap ∧ (receiving 15 16 0).rxCap.toNat % 2 = 0 := by decide

/-- Three records into a ring of two. -/
theorem test_witness_RingHoldsTheMostRecentRecords :
    (receiving 0 2 0).rxCur = 0 ∧ (receiving 0 2 0).rxCap ≠ 0 ∧
    (receiving 0 2 0).rxBase.toNat + (receiving 0 2 0).rxCap.toNat ≤ 2 ^ 32 ∧
    (rxLog (receiving 0 2 0) [(5, 1), (7, 0), (9, 1)]).length ≤ 1 + (receiving 0 2 0).rxCap.toNat ∧
    (rxLog (receiving 0 2 0) [(5, 1), (7, 0), (9, 1)])[1]? = some 2 := by decide

/-- The first transition of a transmission, on a line that idles low. -/
theorem test_witness_LoopbackEdgeIsRecordedAtTheNextIteration :
    ((transmitting 0 4 0 0).rxCur.toNat % 2 = 0 ↔ (transmitting 0 4 0 0).txLevel.getD 0 = 0) ∧
    (txStep [(0x100, 8)] 0x10 (transmitting 0 4 0 0)).txLevel.getD 0 ≠ (transmitting 0 4 0 0).txLevel.getD 0 := by decide

/-! #### The run loop -/

/-- A loop that is leaving, and one that runs, on the line's level and looped back before its first transition. -/
theorem test_witness_LoopStepMeaning :
    ((machine [{ live with running := false }]).insts[0]? = some { live with running := false }) ∧
    ((machine [live]).insts[0]? = some live ∧ live.loopActive = true ∧ live.running = true) ∧
    (RxInput.line 1 = .line 1) ∧ (∃ idle, RxInput.loopback 0 = .loopback idle ∧ (0 : Level) = live.txLevel.getD idle) :=
  ⟨rfl, ⟨rfl, rfl, rfl⟩, rfl, ⟨0, rfl, rfl⟩⟩

/-- A loop that is not active, and a handle with no instance. -/
theorem test_witness_InactiveLoopTakesNoStep :
    (∀ i, (machine [sample]).insts[0]? = some i → i.loopActive = false) ∧
    ∀ i, (machine [sample]).insts[1]? = some i → i.loopActive = false := by
  refine ⟨fun i hi => ?_, nofun⟩
  cases (Option.some.inj hi : sample = i)
  rfl

theorem test_witness_LoopStepTouchesOnlyItsInstance : (machine [live, sample]).insts[0]? = some live ∧
    (∃ t j, perform (.iter 0 (.line 1)) (machine [live, sample]) = .next t ∧ t.insts[0]? = some j) ∧ live.running = true :=
  ⟨rfl, ⟨_, _, rfl, rfl⟩, rfl⟩

theorem test_witness_TxAndRxStepsCommute : rxElemAddr live ≠ txElemAddr live := by decide

/-- A second instance whose buffers lie beyond the sample's, the first of them at its ring's end. -/
def neighbour : Instance :=
  { live with txBase := 0x210, rxBase := 0x300 }

theorem test_witness_LoopStepsOfTwoInstancesCommute : (0 : Nat) ≠ 1 ∧ (machine [live, neighbour]).insts[0]? = some live ∧
    (machine [live, neighbour]).insts[1]? = some neighbour ∧ InstanceInv live ∧ InstanceInv neighbour ∧
    (machine [live, neighbour]).shm.wf ∧ BuffersApart live neighbour := by
  refine ⟨by decide, rfl, rfl, live_inv, by constructor <;> decide, wf_nil, fun a => ?_⟩
  show ¬ ((0x200 ≤ a.toNat ∧ a.toNat < 0x200 + 16) ∧ 0x300 ≤ a.toNat ∧ a.toNat < 0x300 + 16) ∧
    ¬ ((0x200 ≤ a.toNat ∧ a.toNat < 0x200 + 16) ∧ 0x210 ≤ a.toNat ∧ a.toNat < 0x210 + 4) ∧
    ¬ ((0x100 ≤ a.toNat ∧ a.toNat < 0x100 + 4) ∧ 0x300 ≤ a.toNat ∧ a.toNat < 0x300 + 16)
  omega

theorem test_witness_DisableEndsTheLoopAtItsNextStep :
    (machine [live]).insts[(0 : Byte).toNat]? = some live ∧ live.loopActive = true := by decide

theorem test_witness_EnableBeforeTheExitKeepsTheLoop :
    (machine [live]).insts[(0 : Byte).toNat]? = some live ∧ live.running = true ∧ live.loopActive = true := by decide

/-- A step that is no command: a loop step of another instance. -/
theorem test_witness_InactiveInstanceIsFrozen :
    ({ looping with insts := [live, sample] } : State).insts[1]? = some sample ∧ sample.loopActive = false ∧
    (∀ f, nextEvent { looping with insts := [live, sample] } ≠ .command f) ∧
    ∃ t, step { looping with insts := [live, sample] } = .next t :=
  ⟨rfl, rfl, nofun, _, rfl⟩

end Sys2Proof.Tests
end

/-! ## What one step of the machine does

Every event is sorted once by what it does to the records, the clock and SHM (`step_effect`); the invariants of 10_state.md are then
case analyses over the four kinds of effect, and over what a step writes to one record (`RecordStep`). -/

section
namespace Sys2Proof.Machine

variable {e : Event} {s t : State} {i j : Instance}

/-! ### The effect of a step -/

/-- What a step writes to one existing record, with the condition its rule tests first (R140, R180, R220, R222, R231). -/
inductive RecordStep (i : Instance) : Instance → Prop
  | restart (n : Word) (fits : n ≤ i.txSize) : RecordStep i (txRestart n i)
  | rewind : RecordStep i (rxRewind i)
  | start : RecordStep i (startLoop i)
  | stop : RecordStep i (requestStop i)
  | exit (stopped : i.running = false) : RecordStep i (loopExit i)
  | iterate (t : Word) (lvl : Level) (m : Memory) : RecordStep i (iteration t lvl i m).1

/-- A record that CREATE's checks let through (R210): both buffers valid, and a capacity acceptable for the rx buffer. -/
inductive CreatedRecord (h : Nat) : Instance → Prop
  | mk (p q : Byte) (tx rx : Descriptor) (c : Word) (txFits : tx.base.toNat + tx.length.toNat ≤ 2 ^ 32)
      (rxFits : rx.base.toNat + rx.length.toNat ≤ 2 ^ 32) (capOk : rxCapacityOk c rx.length = true) :
      CreatedRecord h (newInstance h p q tx rx c)

/-- The event is a frame that decodes to CREATE. -/
def IsCreate (e : Event) : Prop :=
  ∃ f p q a b c, e = .command f ∧ decode f = some (.create p q a b c)

/-- The clock and its ghost count are the same in both states. -/
def SameClock (s t : State) : Prop :=
  t.clk = s.clk ∧ t.clkStarted = s.clkStarted ∧ t.ticks = s.ticks

/-- The second memory is the first after one write or none. -/
def OneWriteAtMost (m n : Memory) : Prop :=
  n = m ∨ ∃ a v, n = m.write a v

/-- What one event can do to the records, the clock and SHM. -/
inductive StepEffect (e : Event) (s t : State) : Prop
  | kept (insts : t.insts = s.insts) (clock : SameClock s t) (shm : OneWriteAtMost s.shm t.shm)
  | ticked (event : e = .tick) (insts : t.insts = s.insts) (shm : t.shm = s.shm)
      (started : t.clkStarted = s.clkStarted) (clk : t.clk = if s.clkStarted then s.clk + 1 else s.clk)
      (ticks : t.ticks = if s.clkStarted then s.ticks + 1 else s.ticks)
  | changed (h : Nat) (i j : Instance) (found : s.insts[h]? = some i) (change : RecordStep i j)
      (insts : t.insts = s.insts.set h j) (clock : SameClock s t) (shm : OneWriteAtMost s.shm t.shm)
  | created (j : Instance) (event : IsCreate e) (room : s.nInst ≠ Config.maxInstances)
      (record : CreatedRecord s.nInst j) (insts : t.insts = s.insts ++ [j]) (shm : t.shm = s.shm)
      (started : t.clkStarted = true) (clk : t.clk = if s.clkStarted then s.clk else Config.clkEpoch)
      (ticks : t.ticks = s.ticks)

@[simp] theorem clockStart_clk (s : State) :
    (clockStart s).clk = if s.clkStarted then s.clk else Config.clkEpoch := by
  unfold clockStart; split <;> rfl

@[simp] theorem clockStart_clkStarted (s : State) : (clockStart s).clkStarted = true := by
  unfold clockStart; split <;> trivial

@[simp] theorem clockTick_clk (s : State) : (clockTick s).clk = if s.clkStarted then s.clk + 1 else s.clk := by
  unfold clockTick; split <;> rfl

@[simp] theorem clockTick_ticks (s : State) : (clockTick s).ticks = if s.clkStarted then s.ticks + 1 else s.ticks := by
  unfold clockTick; split <;> rfl

@[simp] theorem takeEvent_nInst (s : State) : (takeEvent s).nInst = s.nInst := by simp [State.nInst]

theorem SameClock.refl (s : State) : SameClock s s := ⟨rfl, rfl, rfl⟩

theorem OneWriteAtMost.refl (m : Memory) : OneWriteAtMost m m := .inl rfl

theorem OneWriteAtMost.wf {m n : Memory} (h : OneWriteAtMost m n) (hm : m.wf) : n.wf := by
  obtain rfl | ⟨a, v, rfl⟩ := h
  · exact hm
  · exact wf_write hm a v

/-- An iteration writes SHM once at most: its TX step not at all, its RX step at a record (R184). -/
theorem iteration_oneWriteAtMost (t : Word) (lvl : Level) (i : Instance) (m : Memory) :
    OneWriteAtMost m (iteration t lvl i m).2 := by
  unfold iteration
  obtain ⟨-, h⟩ | ⟨-, h⟩ := rxStep_cases t lvl (txStep m t i) m
  · exact .inr ⟨_, _, by rw [h]⟩
  · exact .inl (by rw [h])

theorem raise_effect (r : Status) : StepEffect e s (raise r s) :=
  .kept (by simp) ⟨by simp, by simp, by simp⟩ (.inl (by simp))

theorem respond_effect (r : Status) (v : Word) : StepEffect e s (respond r v s) :=
  .kept rfl (.refl s) (.refl s.shm)

theorem respond_setInst_effect {h : Nat} (found : s.insts[h]? = some i) (change : RecordStep i j) (r : Status)
    (v : Word) : StepEffect e s (respond r v (s.setInst h j)) :=
  .changed h i j found change rfl (.refl s) (.refl s.shm)

/-- A command on a handle has the effect of a raised error, or that of its action on the record. -/
theorem withInstance_effect (h : Byte) {act : Instance → State}
    (hact : ∀ i, s.insts[(handleOf h).toNat]? = some i → StepEffect e s (act i)) :
    StepEffect e s (withInstance h s act) := by
  obtain ⟨-, hw⟩ | ⟨i, hi, hw⟩ := withInstance_cases (s := s) h act
  · exact hw ▸ raise_effect _
  · exact hw ▸ hact i (by rwa [handleOf_toNat])

theorem createCommand_effect (he : IsCreate e) (p q : Byte) (a b c : Word) :
    StepEffect e s (createCommand p q a b c s) := by
  obtain ⟨-, h⟩ | ⟨-, -, h⟩ | ⟨tx, rx, room, htx, hrx, ⟨-, h⟩ | ⟨hc, h⟩⟩ :=
    createCommand_cases (s := s) p q a b c <;> rw [h]
  case inr.inr.inr =>
    have txFits := (validBuffer_eq_some.mp htx).2
    have rxFits := (validBuffer_eq_some.mp hrx).2
    exact .created _ he room ⟨p, q, tx, rx, c, txFits, rxFits, hc⟩ (by simp) (by simp) (by simp)
      (clockStart_clk _) (by simp)
  all_goals exact raise_effect _

theorem exec_effect {c : Instr} {f : Frame} (hf : decode f = some c) (h : exec c s = .next t) :
    StepEffect (.command f) s t := by
  cases c with
  | create p q a b n =>
    cases h
    exact createCommand_effect ⟨f, p, q, a, b, n, rfl, hf⟩ p q a b n
  | enable g => cases h; exact withInstance_effect g fun i hi => respond_setInst_effect hi .start _ _
  | disable g => cases h; exact withInstance_effect g fun i hi => respond_setInst_effect hi .stop _ _
  | rxReset g => cases h; exact withInstance_effect g fun i hi => respond_setInst_effect hi .rewind _ _
  | enabled g => cases h; exact withInstance_effect g fun i _ => respond_effect _ _
  | txCursor g => cases h; exact withInstance_effect g fun i _ => respond_effect _ _
  | rxCursor g => cases h; exact withInstance_effect g fun i _ => respond_effect _ _
  | txStart g n =>
    cases h
    refine withInstance_effect g fun i hi => ?_
    by_cases hn : i.txSize < n
    · exact if_pos hn ▸ raise_effect _
    · exact if_neg hn ▸ respond_setInst_effect hi (.restart n (BitVec.not_lt.mp hn)) _ _

theorem performCommand_effect {f : Frame} (h : performCommand f s = .next t) : StepEffect (.command f) s t := by
  unfold performCommand at h
  split at h
  next c hc => exact exec_effect hc h
  next => cases h; exact raise_effect _

theorem loopStep_effect (h : Nat) (input : RxInput) : StepEffect e s (loopStep h input s) := by
  obtain ⟨hs, -⟩ | ⟨i, hi, -, ⟨hr, hs⟩ | ⟨-, hs⟩⟩ := loopStep_cases (s := s) h input <;> rw [hs]
  · exact .kept rfl (.refl s) (.refl s.shm)
  · exact .changed h i _ hi (.exit hr) rfl (.refl s) (.refl s.shm)
  · exact .changed h i _ hi (.iterate _ _ _) rfl (.refl s) (iteration_oneWriteAtMost _ _ _ _)

theorem perform_effect (h : perform e s = .next t) : StepEffect e s t := by
  cases e with
  | command f => exact performCommand_effect h
  | tick => cases h; exact .ticked rfl (by simp) (by simp) (by simp) (by simp) (by simp)
  | iter g input => cases h; exact loopStep_effect g input
  | poke a v => cases h; exact .kept rfl (.refl s) (.inr ⟨a, v, rfl⟩)
  | describe handle d => cases h; exact .kept rfl (.refl s) (.refl s.shm)

/-- Taking an event off the order of steps writes nothing an effect speaks of. -/
theorem StepEffect.of_takeEvent (h : StepEffect e (takeEvent s) t) : StepEffect e s t := by
  cases h with
  | kept hi hc hm => exact .kept (by simpa using hi) (by simpa [SameClock] using hc) (by simpa using hm)
  | ticked he hi hm hs hc hu =>
    exact .ticked he (by simpa using hi) (by simpa using hm) (by simpa using hs) (by simpa using hc) (by simpa using hu)
  | changed g i j hg hj hi hc hm =>
    exact .changed g i j (by simpa using hg) hj (by simpa using hi) (by simpa [SameClock] using hc) (by simpa using hm)
  | created j he hr hj hi hm hs hc hu =>
    exact .created j he (by simpa using hr) (by simpa using hj) (by simpa using hi) (by simpa using hm) hs
      (by simpa using hc) (by simpa using hu)

/-- One step has the effect of its event. -/
theorem step_effect (h : step s = .next t) : StepEffect (nextEvent s) s t :=
  .of_takeEvent (perform_effect h)

/-- A property of records that every new record has and every change of a record keeps is kept by every step. -/
theorem StepEffect.keeps_forall {P : Instance → Prop} (hnew : ∀ h j, CreatedRecord h j → P j)
    (hkeep : ∀ i j, RecordStep i j → P i → P j) (he : StepEffect e s t) (hs : ∀ i ∈ s.insts, P i) :
    ∀ i ∈ t.insts, P i := by
  cases he with
  | kept hi | ticked _ hi => exact hi ▸ hs
  | changed g i j hg hj hi =>
    intro k hk
    obtain hk | rfl := List.mem_or_eq_of_mem_set (hi ▸ hk)
    · exact hs k hk
    · exact hkeep i k hj (hs i (List.mem_of_getElem? hg))
  | created j _ _ hj hi =>
    rw [hi, List.forall_mem_append, List.forall_mem_singleton]
    exact ⟨hs, hnew _ j hj⟩

/-! ### R32: the invariant -/

theorem InstanceInv.ofCreatedRecord {h : Nat} (hj : CreatedRecord h j) : InstanceInv j := by
  obtain ⟨p, q, tx, rx, c, txFits, rxFits, capOk⟩ := hj
  obtain ⟨hpos, heven, hle⟩ := rxCapacityOk_iff.mp capOk
  have hne : c.toNat ≠ 0 := fun h0 => hpos (BitVec.eq_of_toNat_eq h0)
  have hle' : c.toNat ≤ rx.length.toNat := hle
  exact {
    txCur_le := BitVec.le_refl _
    txLen_le := Nat.zero_le _
    rxCur_lt := BitVec.lt_def.mpr (Nat.pos_of_ne_zero hne)
    rxCap_even := heven
    rxCap_ge := show 2 ≤ c.toNat by omega
    rxBuf_fits := show rx.base.toNat + c.toNat ≤ 2 ^ 32 by omega
    txBuf_fits := txFits
    active := nofun }

/-- Below its length a transmit cursor advances without a wrap, to the length at most. -/
theorem txCur_succ (hle : i.txCur ≤ i.txLen) (hne : i.txCur ≠ i.txLen) :
    (i.txCur + 1).toNat = i.txCur.toNat + 1 ∧ i.txCur + 1 ≤ i.txLen := by
  bv_omega

/-- A TX step leaves the cursor within the transmission (R32 item 1). -/
theorem txStep_txCur_le (m : Memory) (t : Word) (h : i.txCur ≤ i.txLen) : (txStep m t i).txCur ≤ i.txLen := by
  obtain ⟨-, hs⟩ | ⟨hne, -, hs⟩ | ⟨-, -, hs⟩ := txStep_cases m t i <;> rw [hs]
  · exact h
  · simpa using (txCur_succ h hne).2
  · simpa using h

theorem InstanceInv.txStep (hi : InstanceInv i) (m : Memory) (t : Word) : InstanceInv (txStep m t i) where
  txCur_le := by simpa using txStep_txCur_le m t hi.txCur_le
  txLen_le := by simpa using hi.txLen_le
  rxCur_lt := by simpa using hi.rxCur_lt
  rxCap_even := by simpa using hi.rxCap_even
  rxCap_ge := by simpa using hi.rxCap_ge
  rxBuf_fits := by simpa using hi.rxBuf_fits
  txBuf_fits := by simpa using hi.txBuf_fits
  active := by simpa using hi.active

theorem InstanceInv.rxCap_pos (hi : InstanceInv i) : 0 < i.rxCap :=
  BitVec.lt_def.mpr (Nat.lt_of_lt_of_le Nat.zero_lt_two hi.rxCap_ge)

theorem InstanceInv.rxAdvance (hi : InstanceInv i) (t : Word) : InstanceInv (rxAdvance t i) :=
  { hi with rxCur_lt := BitVec.umod_lt _ hi.rxCap_pos }

theorem InstanceInv.rxStep (hi : InstanceInv i) (t : Word) (lvl : Level) (m : Memory) :
    InstanceInv (rxStep t lvl i m).1 := by
  obtain ⟨-, h⟩ | ⟨-, h⟩ := rxStep_cases t lvl i m <;> rw [h]
  · exact hi.rxAdvance t
  · exact hi

/-- Everything a step writes to a record keeps R32's items for it. -/
theorem InstanceInv.recordStep (hi : InstanceInv i) (h : RecordStep i j) : InstanceInv j := by
  cases h with
  | restart n fits => exact { hi with txCur_le := Nat.zero_le _, txLen_le := fits }
  | rewind => exact { hi with rxCur_lt := hi.rxCap_pos }
  | start =>
    unfold startLoop
    split
    · exact hi
    · exact { hi with active := fun _ => rfl }
  | stop => exact { hi with active := nofun }
  | exit stopped => exact { hi with active := fun hr => absurd (stopped.symm.trans hr) Bool.false_ne_true }
  | iterate t lvl m => exact (hi.txStep m t).rxStep t lvl m

theorem Inv.of_effect (hs : Inv s) (he : StepEffect e s t) : Inv t := by
  have hinsts := he.keeps_forall (fun _ _ => .ofCreatedRecord) (fun _ _ hj hi => hi.recordStep hj) hs.insts
  obtain ⟨-, started, count, memory⟩ := hs
  cases he with
  | kept hi hc hm =>
    obtain ⟨-, hc, -⟩ := hc
    exact ⟨hinsts, by rw [hc, started, State.nInst, State.nInst, hi], by rwa [State.nInst, hi], hm.wf memory⟩
  | ticked _ hi hm hc =>
    exact ⟨hinsts, by rw [hc, started, State.nInst, State.nInst, hi], by rwa [State.nInst, hi], by rwa [hm]⟩
  | changed g i j _ _ hi hc hm =>
    have hn : t.nInst = s.nInst := by simp [State.nInst, hi]
    obtain ⟨-, hc, -⟩ := hc
    exact ⟨hinsts, by rw [hc, started, hn], by rwa [hn], hm.wf memory⟩
  | created j _ room _ hi hm hc =>
    have hn : t.nInst = s.nInst + 1 := by simp [State.nInst, hi]
    exact ⟨hinsts, by simp [hc, hn], by omega, by rwa [hm]⟩

/-- Settles O27: each of the four effects of a step keeps the invariant. -/
theorem stepKeepsTheInvariant : Obligations.StepKeepsTheInvariant :=
  fun _ _ hs h => hs.of_effect (step_effect h)

/-- Settles O26: no record exists yet, and SHM lists no word. -/
theorem invariantHoldsAtPowerOn : Obligations.InvariantHoldsAtPowerOn where
  insts := by simp [State.reset]
  started := by simp [State.reset, State.nInst]
  count := Nat.zero_le _
  memory := wf_nil

/-- Settles O25: a cursor below its bound stays inside a buffer that fits below 2^32. -/
theorem everyAddressLiesInItsBuffer : Obligations.EveryAddressLiesInItsBuffer := by
  intro i ⟨txCur_le, txLen_le, rxCur_lt, _, _, rxBuf_fits, txBuf_fits, _⟩
  unfold wordIn txElemAddr rxElemAddr
  refine ⟨fun hne => ?_, ?_⟩
  · have hsize : i.txCur.toNat < i.txSize.toNat := by bv_omega
    have haddr : (i.txBase + i.txCur).toNat = i.txBase.toNat + i.txCur.toNat := by bv_omega
    exact ⟨by omega, haddr, (txCur_succ txCur_le hne).1⟩
  · have hcap : i.rxCur.toNat < i.rxCap.toNat := rxCur_lt
    have haddr : (i.rxBase + i.rxCur).toNat = i.rxBase.toNat + i.rxCur.toNat := by bv_omega
    exact ⟨by omega, haddr, by bv_omega⟩

/-! ### R27: the wrap guard -/

/-- R27 for one record. -/
def GuardAbove (i : Instance) : Prop :=
  i.txGuard ≠ 0 → i.txTarget < i.txGuard

/-- The test of R157 leaves a guard only above its target, whatever the record was. -/
theorem guardAbove_txClearGuard (i : Instance) : GuardAbove (txClearGuard i) := by
  unfold txClearGuard
  split
  case isTrue => exact fun h => absurd rfl h
  case isFalse hwrap => exact fun _ => BitVec.not_le.mp (by simpa [noWrap] using hwrap)

theorem GuardAbove.txDetectWrap (hi : GuardAbove i) (t : Word) : GuardAbove (txDetectWrap t i) := by
  unfold Machine.txDetectWrap
  split
  · exact fun h => absurd rfl h
  · exact hi

theorem GuardAbove.txArm (hi : GuardAbove i) (t : Word) : GuardAbove (txArm t i) := by
  unfold Machine.txArm
  split
  · exact fun h => absurd rfl h
  · exact hi

theorem GuardAbove.txStep (hi : GuardAbove i) (m : Memory) (t : Word) : GuardAbove (txStep m t i) := by
  obtain ⟨-, hs⟩ | ⟨-, -, hs⟩ | ⟨-, -, hs⟩ := txStep_cases m t i <;> rw [hs]
  · exact hi
  · exact guardAbove_txClearGuard _
  · exact (hi.txArm t).txDetectWrap t

theorem GuardAbove.recordStep (hi : GuardAbove i) (h : RecordStep i j) : GuardAbove j := by
  cases h with
  | restart | rewind | stop | exit => exact hi
  | start => simpa [GuardAbove] using hi
  | iterate t lvl m =>
    have h := hi.txStep m t
    unfold iteration
    rwa [rxStep_frame]

theorem GuardAbove.ofCreatedRecord {h : Nat} (hj : CreatedRecord h j) : GuardAbove j := by
  obtain ⟨⟩ := hj
  exact fun h => absurd rfl h

/-- Settles O28: only a fire writes a non-zero guard, and it keeps one only where the target wrapped. -/
theorem stepKeepsGuardsAboveTheirTargets : Obligations.StepKeepsGuardsAboveTheirTargets :=
  ⟨by simp [GuardInv, State.reset], fun _ _ hs h =>
    (step_effect h).keeps_forall (P := GuardAbove) (fun _ _ => .ofCreatedRecord)
      (fun _ _ hj hi => hi.recordStep hj) hs⟩

/-! ### R21, R22, R124: the clock -/

theorem ClockLaw.of_sameClock (hs : ClockLaw s) (h : SameClock s t) : ClockLaw t := by
  obtain ⟨hclk, hstarted, hticks⟩ := h
  unfold ClockLaw
  rwa [hclk, hstarted, hticks]

theorem ClockLaw.of_effect (hs : ClockLaw s) (he : StepEffect e s t) : ClockLaw t := by
  cases he with
  | kept _ hc | changed _ _ _ _ _ _ hc => exact hs.of_sameClock hc
  | ticked _ _ _ hstarted hclk hticks =>
    cases hb : s.clkStarted with
    | false => exact hs.of_sameClock ⟨by simpa [hb] using hclk, hstarted, by simpa [hb] using hticks⟩
    | true =>
      have hlaw := hs.1 hb
      refine ⟨fun _ => ?_, by simp [hstarted, hb]⟩
      simp [hclk, hticks, hb, hlaw, BitVec.ofNat_add, BitVec.add_assoc]
  | created _ _ _ _ _ _ hstarted hclk hticks =>
    cases hb : s.clkStarted with
    | false =>
      have hzero : t.ticks = 0 := hticks.trans (hs.2 hb)
      exact ⟨fun _ => by simp [hclk, hb, hzero], by simp [hstarted]⟩
    | true => exact hs.of_sameClock ⟨by simpa [hb] using hclk, by rw [hstarted, hb], hticks⟩

/-- Settles O29: a tick adds one to both sides, and the start finds the count at 0. -/
theorem stepKeepsTheClockLaw : Obligations.StepKeepsTheClockLaw :=
  ⟨by simp [ClockLaw, State.reset], fun _ _ hs h => hs.of_effect (step_effect h)⟩

/-- Settles O30: the clock is written by a tick, and by the CREATE that starts it. -/
theorem onlyTicksAndTheStartMoveTheClock : Obligations.OnlyTicksAndTheStartMoveTheClock := by
  intro s t h
  cases step_effect h with
  | kept _ hc | changed _ _ _ _ _ _ hc =>
    obtain ⟨hclk, hstarted, -⟩ := hc
    exact ⟨fun hb => ⟨by rw [hstarted, hb], .inl hclk⟩, fun hb => .inl ⟨by rw [hstarted, hb], hclk⟩⟩
  | ticked he _ _ hstarted hclk =>
    exact ⟨fun hb => ⟨by rw [hstarted, hb], .inr ⟨he, by simpa [hb] using hclk⟩⟩,
      fun hb => .inl ⟨by rw [hstarted, hb], by simpa [hb] using hclk⟩⟩
  | created j he _ _ hi _ hstarted hclk =>
    obtain ⟨f, p, q, a, b, c, hf, hd⟩ := he
    have hn : t.nInst = s.nInst + 1 := by simp [State.nInst, hi]
    exact ⟨fun hb => ⟨hstarted, .inl (by simpa [hb] using hclk)⟩,
      fun hb => .inr ⟨hstarted, by simpa [hb] using hclk, f, p, q, a, b, c, hf, hd, hn⟩⟩

/-! ### R23, R25: instances persist -/

/-- The six constant fields of a record agree (R24, R25). -/
def SameBindings (i j : Instance) : Prop :=
  j.txPin = i.txPin ∧ j.rxPin = i.rxPin ∧ j.txBase = i.txBase ∧ j.txSize = i.txSize ∧
    j.rxBase = i.rxBase ∧ j.rxCap = i.rxCap

theorem SameBindings.refl (i : Instance) : SameBindings i i := ⟨rfl, rfl, rfl, rfl, rfl, rfl⟩

theorem RecordStep.sameBindings (h : RecordStep i j) : SameBindings i j := by
  cases h with
  | restart | rewind | stop | exit => exact .refl i
  | start => simp [SameBindings]
  | iterate t lvl m =>
    unfold iteration
    rw [rxStep_frame, txStep_frame]
    exact .refl i

/-- Settles O32: a step keeps the list of records, changes one of them, or appends one. -/
theorem instancesPersistWithTheirBindings : Obligations.InstancesPersistWithTheirBindings := by
  intro s t h
  cases step_effect h with
  | kept hi | ticked _ hi =>
    exact ⟨.inl (by rw [State.nInst, State.nInst, hi]), fun g i hs => ⟨i, hi ▸ hs, SameBindings.refl i⟩⟩
  | changed h i j hh hj hi =>
    refine ⟨.inl (by simp [State.nInst, hi]), fun g k hs => ?_⟩
    obtain rfl | hne := eq_or_ne h g
    · obtain rfl : i = k := Option.some.inj (hh.symm.trans hs)
      exact ⟨j, by rw [hi, List.getElem?_set_self (inst_lt hs)], hj.sameBindings⟩
    · exact ⟨k, by rwa [hi, List.getElem?_set_ne hne], SameBindings.refl k⟩
  | created j _ _ _ hi =>
    exact ⟨.inr (by simp [State.nInst, hi]), fun g k hs =>
      ⟨k, by rwa [hi, List.getElem?_append_left (inst_lt hs)], SameBindings.refl k⟩⟩

/-! ### R30: the stale target and guard -/

/-- Settles O41: arming at cursor 0 overwrites both fields before anything reads them. -/
theorem staleTargetAndGuardAreUnobservable : Obligations.StaleTargetAndGuardAreUnobservable := by
  intro m t a b i hcur hlen
  have hready : txReady t { i with txTarget := a, txGuard := b } = txReady t i := by
    rw [txReady_armed t hcur, txReady_armed t (i := { i with txTarget := a, txGuard := b }) hcur]
  have hbusy : txIdle i = false := by simpa [txIdle, hcur] using hlen.symm
  have hbusy' : txIdle { i with txTarget := a, txGuard := b } = false := hbusy
  simp [txStep, hbusy, hbusy', hready]

end Sys2Proof.Machine
end

/-! ## SHM, the total order of steps, and loop steps of two instances

A loop step writes one record and one word of SHM at most, and reads one word of SHM (20_memory.md R70, R71). So a loop step is a new
record (`loopRecord`) with a new memory (`loopMemory`), and two of them commute where neither writes a word that the other reads or
writes. -/

section
namespace Sys2Proof.Machine

variable {s : State} {i j : Instance} {m n : Memory}

/-! ### R70: the order of steps, and a host write -/

/-- Settles O7: `nextEvent` and `takeEvent` split on the same list. -/
theorem stepTakesTheNextEvent : Obligations.StepTakesTheNextEvent :=
  ⟨fun _ _ _ h => step_of_pending h, fun _ h => step_of_free h⟩

/-- Settles O6: the step performs the frame at the head of `pending`, and its decoded command is the arm `performCommand` takes. -/
theorem stepRunsTheDecodedCommand : Obligations.StepRunsTheDecodedCommand := by
  intro s f rest i hpending hdecode
  have harm : performCommand f { s with pending := rest } = exec i { s with pending := rest } := by
    simp only [performCommand, hdecode]
  exact (step_of_pending hpending).trans harm

/-- Settles O33: the read after write law of SHM, at the written address and at every other. -/
theorem hostWriteChangesOneWord : Obligations.HostWriteChangesOneWord := fun s a v =>
  ⟨s.memWrite a v, rfl, read_write_same s.shm a v, fun _ hb => read_write_other s.shm v hb, rfl⟩

/-! ### What a loop step reads and writes -/

/-- A TX step reads no word of SHM but the element at its cursor, and none where the transmission is idle (R74, R156). -/
theorem txStep_congr_memory (t : Word)
    (h : i.txCur ≠ i.txLen → m.read (txElemAddr i) = n.read (txElemAddr i)) : txStep m t i = txStep n t i := by
  by_cases hidle : i.txCur = i.txLen
  · simp [txStep, txIdle, hidle]
  · have haddr : txElemAddr (txReady t i) = txElemAddr i := by simp [txElemAddr]
    simp only [txStep, txFire, haddr, h hidle]

/-- The record an RX step leaves does not depend on SHM (R183). -/
theorem rxStep_fst (t : Word) (lvl : Level) (i : Instance) (m : Memory) :
    (rxStep t lvl i m).1 = if edgeSeen i lvl then rxAdvance t i else i := by
  unfold rxStep; split <;> rfl

theorem rxStep_snd (t : Word) (lvl : Level) (i : Instance) (m : Memory) :
    (rxStep t lvl i m).2 = if edgeSeen i lvl then m.write (rxElemAddr i) (t - i.rxLast) else m := by
  unfold rxStep; split <;> rfl

@[simp] theorem edgeSeen_txStep (m : Memory) (t : Word) (i : Instance) (lvl : Level) :
    edgeSeen (txStep m t i) lvl = edgeSeen i lvl := by simp [edgeSeen]

@[simp] theorem rxElemAddr_txStep (m : Memory) (t : Word) (i : Instance) :
    rxElemAddr (txStep m t i) = rxElemAddr i := by simp [rxElemAddr]

/-- An iteration's record depends on SHM by the element its TX step reads alone. -/
theorem iteration_fst_congr_memory (t : Word) (lvl : Level)
    (h : i.txCur ≠ i.txLen → m.read (txElemAddr i) = n.read (txElemAddr i)) :
    (iteration t lvl i m).1 = (iteration t lvl i n).1 := by
  simp only [iteration, rxStep_fst, txStep_congr_memory t h]

/-- An iteration writes SHM as an RX step alone would: its TX step writes no receive field (R232). -/
theorem iteration_snd (t : Word) (lvl : Level) (i : Instance) (m : Memory) :
    (iteration t lvl i m).2 = if edgeSeen i lvl then m.write (rxElemAddr i) (t - i.rxLast) else m := by
  simp [iteration, rxStep_snd]

/-- The record that a loop step at clock value t puts back (R231). -/
def loopRecord (t : Word) (input : RxInput) (i : Instance) (m : Memory) : Instance :=
  if i.loopActive then
    if i.running then (iteration t (pinSample i input) i m).1 else loopExit i
  else i

/-- The memory that a loop step at clock value t leaves: one word written where the loop runs and sees an edge (R184, R231). -/
def loopMemory (t : Word) (input : RxInput) (i : Instance) (m : Memory) : Memory :=
  if i.loopActive ∧ i.running ∧ edgeSeen i (pinSample i input) then m.write (rxElemAddr i) (t - i.rxLast) else m

/-- A loop step of an existing instance puts its record and SHM back, and nothing else (R231, R236). -/
theorem loopStep_eq {h : Nat} (input : RxInput) (hi : s.insts[h]? = some i) :
    loopStep h input s = storeIteration h (loopRecord s.clk input i s.shm, loopMemory s.clk input i s.shm) s := by
  obtain ⟨hs, hinactive⟩ | ⟨k, hk, ha, ⟨hr, hs⟩ | ⟨hr, hs⟩⟩ := loopStep_cases (s := s) h input
  · have hset : s.insts.set h i = s.insts := by
      obtain ⟨hlt, rfl⟩ := List.getElem?_eq_some_iff.mp hi
      exact List.set_getElem_self hlt
    simp [hs, storeIteration, State.setInst, loopRecord, loopMemory, hinactive i hi, hset]
  · obtain rfl : i = k := Option.some.inj (hi.symm.trans hk)
    simp [hs, storeIteration, State.setInst, loopRecord, loopMemory, ha, hr]
  · obtain rfl : i = k := Option.some.inj (hi.symm.trans hk)
    simp [hs, storeIteration, loopRecord, loopMemory, ha, hr, iteration_snd]

/-! ### R71: loop steps of two instances -/

/-- Neither instance's next loop step writes a word that the other's reads or writes. -/
structure ElementsApart (i j : Instance) : Prop where
  rings : rxElemAddr i ≠ rxElemAddr j
  left : i.txCur ≠ i.txLen → rxElemAddr j ≠ txElemAddr i
  right : j.txCur ≠ j.txLen → rxElemAddr i ≠ txElemAddr j

theorem ElementsApart.symm (h : ElementsApart i j) : ElementsApart j i :=
  ⟨h.rings.symm, h.right, h.left⟩

/-- Buffers apart keep apart the elements at the cursors, which lie in them (R71). -/
theorem ElementsApart.of_buffersApart (hi : InstanceInv i) (hj : InstanceInv j) (h : BuffersApart i j) :
    ElementsApart i j := by
  obtain ⟨txIn, rxIn, -⟩ := everyAddressLiesInItsBuffer i hi
  obtain ⟨txIn', rxIn', -⟩ := everyAddressLiesInItsBuffer j hj
  exact {
    rings := fun e => (h _).1 ⟨rxIn, e ▸ rxIn'⟩
    left := fun hbusy e => (h _).2.2 ⟨(txIn hbusy).1, e ▸ rxIn'⟩
    right := fun hbusy e => (h _).2.1 ⟨rxIn, e ▸ (txIn' hbusy).1⟩ }

/-- A word written elsewhere does not show in the record a loop step puts back. -/
theorem loopRecord_loopMemory (h : i.txCur ≠ i.txLen → rxElemAddr j ≠ txElemAddr i) (t : Word) (a b : RxInput)
    (m : Memory) : loopRecord t a i (loopMemory t b j m) = loopRecord t a i m := by
  have hread : i.txCur ≠ i.txLen → (loopMemory t b j m).read (txElemAddr i) = m.read (txElemAddr i) := by
    intro hbusy
    unfold loopMemory
    split
    · exact read_write_other m _ (h hbusy).symm
    · rfl
  simp only [loopRecord, iteration_fst_congr_memory t _ hread]

theorem loopMemory_comm (hm : m.wf) (h : rxElemAddr i ≠ rxElemAddr j) (t : Word) (a b : RxInput) :
    loopMemory t b j (loopMemory t a i m) = loopMemory t a i (loopMemory t b j m) := by
  unfold loopMemory
  split <;> split
  · exact write_comm hm _ _ h
  all_goals rfl

/-- Two loop steps in sequence put back both records as each would be alone, and SHM after both. -/
theorem loopStep_loopStep {g h : Nat} (hgh : g ≠ h) (hi : s.insts[g]? = some i) (hj : s.insts[h]? = some j)
    (hapart : ElementsApart i j) (a b : RxInput) :
    loopStep h b (loopStep g a s) = { s with
      insts := (s.insts.set g (loopRecord s.clk a i s.shm)).set h (loopRecord s.clk b j s.shm)
      shm := loopMemory s.clk b j (loopMemory s.clk a i s.shm) } := by
  have hj' : (loopStep g a s).insts[h]? = some j := by
    rw [loopStep_eq a hi]
    exact (List.getElem?_set_ne hgh).trans hj
  rw [loopStep_eq b hj', loopStep_eq a hi]
  simp [storeIteration, State.setInst, loopRecord_loopMemory hapart.right]

theorem loopStep_comm {g h : Nat} (hgh : g ≠ h) (hi : s.insts[g]? = some i) (hj : s.insts[h]? = some j)
    (hm : s.shm.wf) (hapart : ElementsApart i j) (a b : RxInput) :
    loopStep h b (loopStep g a s) = loopStep g a (loopStep h b s) := by
  rw [loopStep_loopStep hgh hi hj hapart, loopStep_loopStep hgh.symm hj hi hapart.symm,
    List.set_comm _ _ hgh, loopMemory_comm hm hapart.rings]

/-- Settles O56: the elements at the cursors lie in the buffers, so apart, and each step keeps to its own. -/
theorem loopStepsOfTwoInstancesCommute : Obligations.LoopStepsOfTwoInstancesCommute := by
  intro s g h a b i j hgh hi hj invI invJ hm hbuffers
  have hcomm := loopStep_comm hgh hi hj hm (.of_buffersApart invI invJ hbuffers) a b
  exact ⟨loopStep g a s, loopStep h b s, loopStep h b (loopStep g a s), rfl, rfl, rfl, congrArg _ hcomm.symm⟩

end Sys2Proof.Machine
end

/-! ## Frames and commands

A row of the opcode table matches exactly the frames that its command assembles to (`createRow_matches_iff` and its like), so the
decoder inverts the encoder in both directions (`decode_eq_some_iff`), and the frames that decode are the well-formed ones
(30_encoding.md R94, R100). Every decoded command completes with one response (R96). -/

section
namespace Sys2Proof

variable {f : Frame} {i : Instr} {x y : Fields}

/-! ### Rows of the opcode table (R93, R94) -/

theorem fields_eq_iff : x = y ↔ x.op = y.op ∧ x.h = y.h ∧ x.p0 = y.p0 ∧ x.p1 = y.p1 ∧ x.a = y.a ∧ x.b = y.b ∧
    x.c = y.c := by
  cases x
  cases y
  simp only [Fields.mk.injEq]

theorem fieldsOf_encode (i : Instr) : fieldsOf (encode i) = instrFields i := fieldsOf_frameOf _

theorem encode_eq_iff : encode i = f ↔ fieldsOf f = instrFields i := by
  constructor
  · rintro rfl
    exact fieldsOf_encode i
  · intro h
    rw [encode, ← h, frameOf_fieldsOf]

theorem createRow_matches_iff (f : Frame) : rowMatches createRow f = true ↔
    encode (.create (fieldsOf f).p0 (fieldsOf f).p1 (fieldsOf f).a (fieldsOf f).b (fieldsOf f).c) = f := by
  rw [← frameOf_fieldsOf f, createRow_matches, encode_eq_iff, fieldsOf_frameOf]
  simp [instrFields, fields_eq_iff]

theorem txStartRow_matches_iff (f : Frame) : rowMatches txStartRow f = true ↔
    encode (.txStart (fieldsOf f).h (fieldsOf f).a) = f := by
  rw [← frameOf_fieldsOf f, txStartRow_matches, encode_eq_iff, fieldsOf_frameOf]
  simp [instrFields, fields_eq_iff]

/-- The row of a command that uses H alone. -/
theorem handleRow_matches_iff {row : OpcodeRow} {op : Byte} {mk : Byte → Instr}
    (hrow : row = (frameOf maskOnlyH, frameOf ⟨op, 0, 0, 0, 0, 0, 0⟩))
    (hmk : ∀ h, instrFields (mk h) = ⟨op, h, 0, 0, 0, 0, 0⟩) (f : Frame) :
    rowMatches row f = true ↔ encode (mk (fieldsOf f).h) = f := by
  rw [hrow, ← frameOf_fieldsOf f, rowMatches_onlyH, encode_eq_iff, fieldsOf_frameOf, hmk]
  simp [fields_eq_iff]

theorem enableRow_matches_iff (f : Frame) : rowMatches enableRow f = true ↔ encode (.enable (fieldsOf f).h) = f :=
  handleRow_matches_iff enableRow_eq (fun _ => rfl) f

theorem disableRow_matches_iff (f : Frame) : rowMatches disableRow f = true ↔ encode (.disable (fieldsOf f).h) = f :=
  handleRow_matches_iff disableRow_eq (fun _ => rfl) f

theorem enabledRow_matches_iff (f : Frame) : rowMatches enabledRow f = true ↔ encode (.enabled (fieldsOf f).h) = f :=
  handleRow_matches_iff enabledRow_eq (fun _ => rfl) f

theorem txCursorRow_matches_iff (f : Frame) :
    rowMatches txCursorRow f = true ↔ encode (.txCursor (fieldsOf f).h) = f :=
  handleRow_matches_iff txCursorRow_eq (fun _ => rfl) f

theorem rxCursorRow_matches_iff (f : Frame) :
    rowMatches rxCursorRow f = true ↔ encode (.rxCursor (fieldsOf f).h) = f :=
  handleRow_matches_iff rxCursorRow_eq (fun _ => rfl) f

theorem rxResetRow_matches_iff (f : Frame) : rowMatches rxResetRow f = true ↔ encode (.rxReset (fieldsOf f).h) = f :=
  handleRow_matches_iff rxResetRow_eq (fun _ => rfl) f

theorem opcodeRows_mask_op {row : OpcodeRow} (hrow : row ∈ opcodeRows) : (fieldsOf row.1).op = 255#8 := by
  have hall : opcodeRows.all (fun r => (fieldsOf r.1).op == 255#8) = true := by decide
  exact beq_iff_eq.mp (List.all_eq_true.mp hall row hrow)

/-- Every row's mask covers the opcode, so the row fixes it. -/
theorem op_of_rowMatches {row : OpcodeRow} (hrow : row ∈ opcodeRows) (h : rowMatches row f = true) :
    (fieldsOf f).op = (fieldsOf row.2).op := by
  have hand : f &&& row.1 = row.2 := by simpa [rowMatches] using h
  calc (fieldsOf f).op = (fieldsOf f).op &&& (fieldsOf row.1).op := by
        rw [opcodeRows_mask_op hrow, byte_and_ones]
    _ = (fieldsOf (f &&& row.1)).op := BitVec.extractLsb'_and.symm
    _ = (fieldsOf row.2).op := by rw [hand]

theorem opcodeRows_ops : opcodeRows.map (fun r => (fieldsOf r.2).op) = [1, 2, 3, 4, 5, 6, 7, 8] := by decide

theorem opcodeRows_op_inj {r₁ r₂ : OpcodeRow} (h₁ : r₁ ∈ opcodeRows) (h₂ : r₂ ∈ opcodeRows)
    (h : (fieldsOf r₁.2).op = (fieldsOf r₂.2).op) : r₁ = r₂ := by
  refine List.inj_on_of_nodup_map (f := fun r => (fieldsOf r.2).op) ?_ h₁ h₂ h
  rw [opcodeRows_ops]
  decide

/-- Settles O3: each row fixes the opcode, and no two rows have the same one. -/
theorem frameMatchesAtMostOneRow : Obligations.FrameMatchesAtMostOneRow := by
  intro f r₁ r₂ hr₁ hr₂ h₁ h₂
  have hop : (fieldsOf r₁.2).op = (fieldsOf r₂.2).op := (op_of_rowMatches hr₁ h₁).symm.trans (op_of_rowMatches hr₂ h₂)
  exact opcodeRows_op_inj hr₁ hr₂ hop

/-! ### The decoder and the encoder (R100) -/

/-- Settles O1: on the command's frame each row's test compares the command's fields with those of the command it would give, and
only its own row's holds. -/
theorem decodeInvertsEncode : Obligations.DecodeInvertsEncode := by
  intro i
  simp only [decode, createRow_matches_iff, enableRow_matches_iff, disableRow_matches_iff, enabledRow_matches_iff,
    txStartRow_matches_iff, txCursorRow_matches_iff, rxCursorRow_matches_iff, rxResetRow_matches_iff, encode_eq_iff,
    fieldsOf_encode]
  cases i <;> simp [instrFields]

/-- Settles O2: the row that matches says which command the frame is assembled from. -/
theorem encodeInvertsDecode : Obligations.EncodeInvertsDecode := by
  intro f i h
  unfold decode at h
  split_ifs at h with hcreate henable hdisable henabled htxStart htxCursor hrxCursor hrxReset <;> cases h
  · exact (createRow_matches_iff f).mp hcreate
  · exact (enableRow_matches_iff f).mp henable
  · exact (disableRow_matches_iff f).mp hdisable
  · exact (enabledRow_matches_iff f).mp henabled
  · exact (txStartRow_matches_iff f).mp htxStart
  · exact (txCursorRow_matches_iff f).mp htxCursor
  · exact (rxCursorRow_matches_iff f).mp hrxCursor
  · exact (rxResetRow_matches_iff f).mp hrxReset

theorem decode_eq_some_iff : decode f = some i ↔ encode i = f :=
  ⟨encodeInvertsDecode f i, fun h => h ▸ decodeInvertsEncode i⟩

theorem decode_frameOf_eq_some_iff : decode (frameOf x) = some i ↔ x = instrFields i := by
  rw [decode_eq_some_iff, encode_eq_iff, fieldsOf_frameOf]

/-- Settles O5: each frame of the table is the one its command assembles to, and no row matches the illegal ones. -/
theorem exampleFramesDecode : Obligations.ExampleFramesDecode := by
  unfold Obligations.ExampleFramesDecode
  simp only [decode_eq_some_iff]
  decide

/-! ### Well-formed frames (R91, R93) -/

theorem opcodeDefined_iff : x.opcodeDefined = true ↔
    x.op = 1 ∨ x.op = 2 ∨ x.op = 3 ∨ x.op = 4 ∨ x.op = 5 ∨ x.op = 6 ∨ x.op = 7 ∨ x.op = 8 := by
  simp only [Fields.opcodeDefined, Bool.and_eq_true, decide_eq_true_eq]
  bv_omega

theorem reservedZero_of_create (hop : x.op = 1) : x.reservedZero = (x.h == 0) := by
  simp [Fields.reservedZero, Fields.usesH, Fields.usesPins, Fields.usesA, Fields.usesBC, hop]

theorem reservedZero_of_txStart (hop : x.op = 5) :
    x.reservedZero = (x.p0 == 0 && x.p1 == 0 && x.b == 0 && x.c == 0) := by
  simp [Fields.reservedZero, Fields.usesH, Fields.usesPins, Fields.usesA, Fields.usesBC, hop, Bool.and_assoc]

theorem reservedZero_of_handleOnly (h₁ : x.op ≠ 1) (h₅ : x.op ≠ 5) : x.reservedZero = Machine.onlyH x := by
  rw [← beq_eq_false_iff_ne] at h₁ h₅
  simp only [Fields.reservedZero, Fields.usesH, Fields.usesPins, Fields.usesA, Fields.usesBC, bne, h₁, h₅]
  simp [Machine.onlyH, Bool.and_assoc]

theorem instrFields_wellFormed (i : Instr) : (instrFields i).wellFormed = true := by
  rw [← fieldsOf_encode]
  cases i with
  | create p q a b c => exact Laws.EncodesWellFormed.create p q a b c
  | enable h => exact Laws.EncodesWellFormed.enable h
  | disable h => exact Laws.EncodesWellFormed.disable h
  | enabled h => exact Laws.EncodesWellFormed.enabled h
  | txStart h n => exact Laws.EncodesWellFormed.txStart h n
  | txCursor h => exact Laws.EncodesWellFormed.txCursor h
  | rxCursor h => exact Laws.EncodesWellFormed.rxCursor h
  | rxReset h => exact Laws.EncodesWellFormed.rxReset h

theorem eq_instrFields_of_handleOnly {op : Byte} {mk : Byte → Instr} (hop : x.op = op) (h₁ : op ≠ 1) (h₅ : op ≠ 5)
    (hmk : ∀ h, instrFields (mk h) = ⟨op, h, 0, 0, 0, 0, 0⟩) (hzero : x.reservedZero = true) :
    ∃ i, x = instrFields i := by
  rw [reservedZero_of_handleOnly (hop ▸ h₁) (hop ▸ h₅)] at hzero
  refine ⟨mk x.h, ?_⟩
  rw [hmk]
  simpa [Machine.onlyH, fields_eq_iff, hop, and_assoc] using hzero

/-- Well-formed fields are those of a command. -/
theorem eq_instrFields_of_wellFormed (hx : x.wellFormed = true) : ∃ i, x = instrFields i := by
  obtain ⟨hdefined, hzero⟩ := Bool.and_eq_true_iff.mp hx
  obtain hop | hop | hop | hop | hop | hop | hop | hop := opcodeDefined_iff.mp hdefined
  · rw [reservedZero_of_create hop] at hzero
    exact ⟨.create x.p0 x.p1 x.a x.b x.c, by simpa [instrFields, fields_eq_iff, hop] using hzero⟩
  · exact eq_instrFields_of_handleOnly (mk := .enable) hop (by decide) (by decide) (fun _ => rfl) hzero
  · exact eq_instrFields_of_handleOnly (mk := .disable) hop (by decide) (by decide) (fun _ => rfl) hzero
  · exact eq_instrFields_of_handleOnly (mk := .enabled) hop (by decide) (by decide) (fun _ => rfl) hzero
  · rw [reservedZero_of_txStart hop] at hzero
    exact ⟨.txStart x.h x.a, by simpa [instrFields, fields_eq_iff, hop, and_assoc] using hzero⟩
  · exact eq_instrFields_of_handleOnly (mk := .txCursor) hop (by decide) (by decide) (fun _ => rfl) hzero
  · exact eq_instrFields_of_handleOnly (mk := .rxCursor) hop (by decide) (by decide) (fun _ => rfl) hzero
  · exact eq_instrFields_of_handleOnly (mk := .rxReset) hop (by decide) (by decide) (fun _ => rfl) hzero

theorem decode_frameOf_of_wellFormed (hx : x.wellFormed = true) : ∃ i, decode (frameOf x) = some i := by
  obtain ⟨i, hi⟩ := eq_instrFields_of_wellFormed hx
  exact ⟨i, decode_frameOf_eq_some_iff.mpr hi⟩

theorem decode_frameOf_of_not_wellFormed (hx : x.wellFormed = false) : decode (frameOf x) = none := by
  refine Option.eq_none_iff_forall_ne_some.mpr fun i hi => ?_
  have hwf := instrFields_wellFormed i
  rw [← decode_frameOf_eq_some_iff.mp hi, hx] at hwf
  exact Bool.false_ne_true hwf

theorem decodeOrReject_of_not_wellFormed (hx : x.wellFormed = false) :
    decodeOrReject (frameOf x) = .error (if x.opcodeDefined then .reservedField else .illegalOpcode) := by
  simp only [decodeOrReject, decode_frameOf_of_not_wellFormed hx, rejection, fieldsOf_frameOf]

/-- Settles O4: the well-formed fields are those of a command, and the rejection tests the opcode. -/
theorem decodesExactlyTheWellFormedFrames : Obligations.DecodesExactlyTheWellFormedFrames := by
  refine fun x => ⟨fun hx => ?_, fun hop => ?_, fun hop hzero => ?_⟩
  · obtain ⟨i, hi⟩ := decode_frameOf_of_wellFormed hx
    exact ⟨i, by simp only [decodeOrReject, hi]⟩
  · rw [decodeOrReject_of_not_wellFormed (by rw [Fields.wellFormed, hop, Bool.false_and]), hop]
    rfl
  · rw [decodeOrReject_of_not_wellFormed (by rw [Fields.wellFormed, hzero, Bool.and_false]), hop]
    rfl

end Sys2Proof

namespace Sys2Proof.Machine

variable {s : State} {l : List Status}

/-! ### Every command completes, and so does every step (R96, R250, R253) -/

/-- The state holds a response of one of the statuses `l`. -/
def Answers (l : List Status) (t : State) : Prop :=
  ∃ r, t.response = some r ∧ r.status ∈ l

theorem respond_answers {e : Status} (he : e ∈ l) (v : Word) (s : State) : Answers l (respond e v s) :=
  ⟨⟨e, v⟩, rfl, he⟩

theorem raise_answers {e : Status} (he : e ∈ l) (s : State) : Answers l (raise e s) :=
  ⟨⟨e, 0⟩, raise_response s e, he⟩

/-- A command on a handle answers BAD_HANDLE, or what its action answers (R254). -/
theorem withInstance_answers (h : Byte) {act : Instance → State} (hbad : .badHandle ∈ l)
    (hact : ∀ i, Answers l (act i)) : Answers l (withInstance h s act) := by
  obtain ⟨-, hw⟩ | ⟨i, -, hw⟩ := withInstance_cases (s := s) h act
  · exact hw ▸ raise_answers hbad s
  · exact hw ▸ hact i

theorem withInstance_respond_answers (h : Byte) (v : Instance → Word) (u : Instance → State) :
    Answers [.ok, .badHandle] (withInstance h s fun i => respond .ok (v i) (u i)) :=
  withInstance_answers h (by decide) fun i => respond_answers (by decide) (v i) (u i)

theorem withInstance_txStart_answers (h : Byte) (n : Word) (u : Instance → State) :
    Answers [.ok, .badHandle, .txLengthInvalid]
      (withInstance h s fun i => if i.txSize < n then raise .txLengthInvalid s else respond .ok 0 (u i)) :=
  withInstance_answers h (by decide) fun i => by
    split
    · exact raise_answers (by decide) s
    · exact respond_answers (by decide) 0 (u i)

theorem createCommand_answers (p q : Byte) (a b c : Word) :
    Answers [.ok, .capacityExhausted, .badBuffer, .rxCapacityInvalid] (createCommand p q a b c s) := by
  obtain ⟨-, h⟩ | ⟨-, -, h⟩ | ⟨tx, rx, -, -, -, ⟨-, h⟩ | ⟨-, h⟩⟩ := createCommand_cases (s := s) p q a b c <;> rw [h]
  · exact raise_answers (by decide) s
  · exact raise_answers (by decide) s
  · exact raise_answers (by decide) s
  · exact respond_answers (by decide) _ _

theorem exec_answers (i : Instr) (s : State) : ∃ t, exec i s = .next t ∧ Answers (statusesOf i) t := by
  cases i with
  | create p q a b c => exact ⟨_, rfl, createCommand_answers p q a b c⟩
  | enable h | disable h | enabled h | txCursor h | rxCursor h | rxReset h =>
    exact ⟨_, rfl, withInstance_respond_answers h _ _⟩
  | txStart h n => exact ⟨_, rfl, withInstance_txStart_answers h n _⟩

/-- Settles O20: each command ends in one of the responses of its rule. -/
theorem everyCommandAnswersAStatusOfItsOwn : Obligations.EveryCommandAnswersAStatusOfItsOwn := by
  intro i s
  obtain ⟨t, ht, r, hr, hstatus⟩ := exec_answers i s
  exact ⟨t, r, ht, hr, hstatus⟩

theorem performCommand_next (f : Frame) (s : State) : ∃ t, performCommand f s = .next t := by
  cases hf : decode f with
  | none => exact ⟨raise .illegalCommand s, by simp only [performCommand, hf]⟩
  | some i =>
    obtain ⟨t, ht, -⟩ := exec_answers i s
    exact ⟨t, by simp only [performCommand, hf, ht]⟩

theorem perform_next (e : Event) (s : State) : ∃ t, perform e s = .next t := by
  cases e with
  | command f => exact performCommand_next f s
  | tick | iter _ _ | poke _ _ | describe _ _ => exact ⟨_, rfl⟩

/-- Settles O9: a step performs an event, a command has a next state, and the other events are total by their definition. -/
theorem everyStepHasANextState : Obligations.EveryStepHasANextState :=
  fun s => perform_next (nextEvent s) (takeEvent s)

end Sys2Proof.Machine
end

/-! ## The clock

A tick of the started clock adds one (40_clock.md R122), so a run of n ticks adds n, and the difference of the two counter values is n
where n fits the counter (R125, R126). CREATE is the one command that may write the clock, by CLOCK_START (R121), and it either raises
an error or adds one record (R210). -/

section
namespace Sys2Proof.Machine

variable {s : State}

/-! ### R122: a tick -/

theorem clockTick_of_started (h : s.clkStarted = true) :
    clockTick s = { s with clk := s.clk + 1, ticks := s.ticks + 1 } := if_pos h

theorem clockTick_of_not_started (h : s.clkStarted = false) : clockTick s = s := if_neg (by simp [h])

/-- Settles O34: the two branches of CLOCK_TICK. -/
theorem tickAddsOne : Obligations.TickAddsOne :=
  ⟨fun _ h => congrArg _ (clockTick_of_started h), fun _ h => congrArg _ (clockTick_of_not_started h)⟩

/-! ### R125, R126: elapsed ticks -/

/-- The state once n ticks of the started clock have been taken and `rest` is left of the order of steps. -/
def State.afterTicks (s : State) (n : Nat) (rest : List Event) : State :=
  { s with clk := s.clk + BitVec.ofNat 32 n, ticks := s.ticks + n, pending := rest }

theorem afterTicks_zero (s : State) : s.afterTicks 0 s.pending = s := by
  simp [State.afterTicks]

theorem afterTicks_afterTicks (s : State) (m n : Nat) (l rest : List Event) :
    (s.afterTicks m l).afterTicks n rest = s.afterTicks (m + n) rest := by
  simp [State.afterTicks, BitVec.ofNat_add, BitVec.add_assoc, Nat.add_assoc]

theorem step_of_tick {rest : List Event} (hs : s.clkStarted = true) (hp : s.pending = .tick :: rest) :
    step s = .next (s.afterTicks 1 rest) :=
  (step_of_pending hp).trans (tickAddsOne.1 { s with pending := rest } hs)

theorem run_succ_of_step {u : State} (h : step s = .next u) (n : Nat) : core.run (n + 1) s = core.run n u := by
  have hcore : core.step s = .next u := h
  simp only [Host.Core.run, hcore]

/-- n ticks at the head of the order of steps take n steps, and add n to the clock (R125). -/
theorem run_ticks (n : Nat) {rest : List Event} (hs : s.clkStarted = true)
    (hp : s.pending = List.replicate n .tick ++ rest) : core.run n s = .next (s.afterTicks n rest) := by
  induction n generalizing s with
  | zero =>
    obtain rfl : s.pending = rest := hp
    exact congrArg _ (afterTicks_zero s).symm
  | succ n ih =>
    have hstep : step s = .next (s.afterTicks 1 (List.replicate n .tick ++ rest)) := step_of_tick hs hp
    have htail : core.run n (s.afterTicks 1 (List.replicate n .tick ++ rest)) = _ := ih hs rfl
    rw [run_succ_of_step hstep, htail, afterTicks_afterTicks, Nat.add_comm]

/-- The elapsed time law (R126). -/
theorem toNat_elapsed_eq_iff (t : Word) (n : Nat) : (t + BitVec.ofNat 32 n - t).toNat = n ↔ n < 2 ^ 32 := by
  rw [BitVec.add_comm, BitVec.add_sub_cancel, BitVec.toNat_ofNat, Nat.mod_eq_iff_lt (by decide)]

/-- Settles O35: the run over the ticks, and the elapsed time law for the counter it leaves. -/
theorem elapsedTicksAreTheDifference : Obligations.ElapsedTicksAreTheDifference := fun n s rest hs hp =>
  ⟨s.afterTicks n rest, run_ticks n hs hp, rfl, rfl, toNat_elapsed_eq_iff s.clk n⟩

/-! ### R121, R210: what CREATE leaves alone -/

theorem raise_frame (e : Status) (s : State) :
    raise e s = { s with fatal := (raise e s).fatal, response := (raise e s).response } := by
  cases e <;> rfl

theorem clockStart_frame (s : State) :
    clockStart s = { s with clk := (clockStart s).clk, clkStarted := (clockStart s).clkStarted } := by
  unfold clockStart; split <;> rfl

/-- CREATE raises an error, or adds one record and starts the clock (R210). -/
theorem createCommand_raises_or_adds (p q : Byte) (a b c : Word) (s : State) :
    (∃ e, createCommand p q a b c s = raise e s) ∨
      ∃ i v, createCommand p q a b c s = respond .ok v (clockStart (addInstance i s)) := by
  obtain ⟨-, h⟩ | ⟨-, -, h⟩ | ⟨tx, rx, -, -, -, ⟨-, h⟩ | ⟨-, h⟩⟩ := createCommand_cases (s := s) p q a b c
  · exact .inl ⟨_, h⟩
  · exact .inl ⟨_, h⟩
  · exact .inl ⟨_, h⟩
  · exact .inr ⟨_, _, h⟩

/-- Settles O23: an error leaves all but the response and `G.fatal`, and a made instance stands after those that exist. -/
theorem createLeavesTheRestAlone : Obligations.CreateLeavesTheRestAlone := by
  rintro p q a b c s t ⟨⟩
  obtain ⟨e, h⟩ | ⟨i, v, h⟩ := createCommand_raises_or_adds p q a b c s <;> rw [h]
  · exact ⟨by rw [raise_frame e s], by simp, by simp, .inl (by simp [State.nInst]), by simp, by simp⟩
  · refine ⟨?_, by simp, fun g hg => ?_, .inr (by simp [State.nInst]), fun hs => by simp [hs], fun hn => ?_⟩
    · rw [clockStart_frame (addInstance i s)]; rfl
    · simp [List.getElem?_append_left hg]
    · simp [State.nInst] at hn

end Sys2Proof.Machine
end

/-! ## The transmit step

A TX step leaves an idle instance, fires, or waits (`txStep_cases`); what it finds at step 3 is `txReady`, and what a fire writes is
`txFire_eq` (41_transmit.md R150 to R157). A run of steps keeps a transmission on the absolute schedule (R160), and one that is polled
often enough fires each transition on time (R163). -/

section
namespace Sys2Proof.Machine

variable {i r : Instance} {m : Memory} {t t0 : Word}

/-! ### R151 to R157: what a step finds and what a fire writes -/

@[simp] theorem txElemAddr_txReady (t : Word) (i : Instance) : txElemAddr (txReady t i) = txElemAddr i := by
  simp [txElemAddr]

@[simp] theorem txFire_txTarget (m : Memory) (i : Instance) :
    (txFire m i).txTarget = i.txTarget + m.read (txElemAddr i) := by simp [txFire]

@[simp] theorem txFire_txLevel (m : Memory) (i : Instance) : (txFire m i).txLevel = some (levelAt i.txCur) := by
  simp [txFire]

theorem txReady_txTarget (h : i.txCur ≠ 0) (t : Word) : (txReady t i).txTarget = i.txTarget := by
  rw [txReady_pending t h]

theorem txReady_txGuard (h : i.txCur ≠ 0) (t : Word) :
    (txReady t i).txGuard = if t < i.txGuard then 0 else i.txGuard := by
  simp only [txReady, txArm, if_neg h, txDetectWrap, wrapSeen, decide_eq_true_eq]
  split <;> rfl

theorem txReady_txGuard_eq_zero_iff (h : i.txCur ≠ 0) (t : Word) :
    (txReady t i).txGuard = 0 ↔ i.txGuard = 0 ∨ t < i.txGuard := by
  rw [txReady_txGuard h]
  split <;> simp_all

/-- Past cursor 0, steps 1 and 2 leave a record whose guard they find as they leave it. -/
theorem txReady_eq_self (h : i.txCur ≠ 0) (hguard : (txReady t i).txGuard = i.txGuard) : txReady t i = i := by
  rw [txReady_pending t h, hguard]

/-- The test of step 3 (R153). -/
theorem txDue_iff (t : Word) (i : Instance) : txDue t i = true ↔ i.txGuard = 0 ∧ i.txTarget ≤ t := by
  simp [txDue]

theorem txDue_eq_false_iff (t : Word) (i : Instance) : txDue t i = false ↔ i.txGuard ≠ 0 ∨ t < i.txTarget := by
  rw [← Bool.not_eq_true, txDue_iff, not_and_or, BitVec.not_le]

/-- An armed transition is due at its own sample (R151, R159). -/
theorem txDue_armed (t : Word) (h : i.txCur = 0) : txDue t (txReady t i) = true := by
  simp [txDue_iff, txReady_armed t h]

theorem txClearGuard_eq (i : Instance) :
    txClearGuard i = { i with txGuard := if i.txGuard ≤ i.txTarget then 0 else i.txGuard } := by
  simp only [txClearGuard, noWrap, decide_eq_true_eq]
  split <;> rfl

/-- What a fire writes (R154 to R157). -/
theorem txFire_eq (m : Memory) (i : Instance) : txFire m i = { i with
    txLevel := some (if i.txCur.toNat % 2 = 0 then 1 else 0)
    txTarget := i.txTarget + m.read (txElemAddr i)
    txCur := i.txCur + 1
    txGuard := if i.txTarget ≤ i.txTarget + m.read (txElemAddr i) then 0 else i.txTarget } := by
  rw [← levelAt_eq, txFire, txClearGuard_eq]
  rfl

/-- The guard that a fire leaves: 0, or the old target where the advance carried (R157). -/
theorem txClearGuard_txAdvance_txGuard (d : Word) (i : Instance) :
    (txClearGuard (txAdvance d i)).txGuard = if i.txTarget.toNat + d.toNat < 2 ^ 32 then 0 else i.txTarget := by
  simp only [txClearGuard, noWrap_iff]
  split <;> rfl

theorem txStep_of_idle (h : i.txCur = i.txLen) : txStep m t i = i := by
  simp [txStep, txIdle, h]

theorem txStep_of_due (hbusy : i.txCur ≠ i.txLen) (hdue : txDue t (txReady t i) = true) :
    txStep m t i = txFire m (txReady t i) := by
  simp [txStep, txIdle, hbusy, hdue]

theorem txStep_of_not_due (hbusy : i.txCur ≠ i.txLen) (hdue : txDue t (txReady t i) = false) :
    txStep m t i = txReady t i := by
  simp [txStep, txIdle, hbusy, hdue]

/-- Settles O36: step 1 arms at cursor 0, step 2 decides the guard elsewhere, and step 3 tests the target. -/
theorem txStepMeaning : Obligations.TxStepMeaning := by
  refine fun m t i => ⟨txStep_of_idle, fun hbusy hcur => ?_, fun hbusy hcur hguard htarget => ?_,
    fun hbusy hcur hguard htarget => ?_, fun hbusy hcur hguard hwrap => ?_⟩
  · rw [txStep_of_due hbusy (txDue_armed t hcur), txFire_eq, txReady_armed t hcur]
    simp [txElemAddr, hcur]
  · have hclear := (txReady_txGuard_eq_zero_iff hcur t).mpr hguard
    have hdue : txDue t (txReady t i) = true := (txDue_iff ..).mpr ⟨hclear, by rwa [txReady_txTarget hcur]⟩
    rw [txStep_of_due hbusy hdue, txFire_eq, txReady_pending t hcur]
    rfl
  · have hclear := (txReady_txGuard_eq_zero_iff hcur t).mpr hguard
    have hdue : txDue t (txReady t i) = false := (txDue_eq_false_iff ..).mpr (.inr (by rwa [txReady_txTarget hcur]))
    rw [txStep_of_not_due hbusy hdue, txReady_pending t hcur, hclear]
  · have hkept : (txReady t i).txGuard = i.txGuard := by rw [txReady_txGuard hcur, if_neg (BitVec.not_lt.mpr hwrap)]
    have hdue : txDue t (txReady t i) = false := (txDue_eq_false_iff ..).mpr (.inl (hkept ▸ hguard))
    rw [txStep_of_not_due hbusy hdue, txReady_eq_self hcur hkept]

/-- Settles O37: the two branches of step 3, with what the advance writes. -/
theorem dueTransitionFires : Obligations.DueTransitionFires := by
  refine fun m t i hbusy => ⟨fun hguard htarget => ⟨_, rfl, ?_, ?_, rfl, rfl, ?_⟩, fun hwait => ?_⟩
  · have haddr : txElemAddr (txReady t i) = i.txBase + i.txCur := txElemAddr_txReady t i
    rw [txStep_of_due hbusy ((txDue_iff ..).mpr ⟨hguard, htarget⟩), txFire, haddr]
  · simp [levelAt_eq]
  · simp
  · exact txStep_of_not_due hbusy ((txDue_eq_false_iff ..).mpr hwait)

/-- Settles O38: an advance that carries starts from a target above 0. -/
theorem guardKeptExactlyOnCarry : Obligations.GuardKeptExactlyOnCarry := by
  intro d i
  rw [txClearGuard_txAdvance_txGuard]
  split
  case isTrue hfits => exact ⟨⟨fun h => absurd rfl h, fun h => absurd hfits (Nat.not_lt.mpr h)⟩, fun h => absurd rfl h⟩
  case isFalse hcarry =>
    have hpos : i.txTarget ≠ 0 := by
      intro h0
      exact hcarry (by rw [h0]; simpa using d.isLt)
    exact ⟨⟨fun _ => Nat.not_lt.mp hcarry, fun _ => hpos⟩, fun _ => rfl⟩

/-- Steps 1 and 2 write the target and the guard at most (R151, R152). -/
theorem txReady_frame (t : Word) (i : Instance) :
    txReady t i = { i with txTarget := (txReady t i).txTarget, txGuard := (txReady t i).txGuard } := by
  by_cases hcur : i.txCur = 0
  · rw [txReady_armed t hcur]
  · rw [txReady_txTarget hcur, ← txReady_pending t hcur]

/-- Steps 1 and 2 done again at the same sample write nothing new. -/
theorem txReady_txReady (t : Word) (i : Instance) : txReady t (txReady t i) = txReady t i := by
  by_cases hcur : i.txCur = 0
  · simp only [txReady_armed t hcur, txReady_armed t (i := { i with txTarget := t, txGuard := 0 }) hcur]
  · refine txReady_eq_self (by simpa using hcur) ?_
    rw [txReady_txGuard (by simpa using hcur), txReady_txGuard hcur]
    split <;> simp

/-- Settles O39: one fire advances the cursor by one, and waiting is steps 1 and 2 alone. -/
theorem atMostOneTransitionPerIteration : Obligations.AtMostOneTransitionPerIteration := by
  intro m t i
  obtain ⟨hidle, h⟩ | ⟨-, -, h⟩ | ⟨hbusy, hdue, h⟩ := txStep_cases m t i
  · exact .inr ⟨by rw [h], by rw [h, h]⟩
  · exact .inl (by simp [h])
  · refine .inr ⟨h ▸ txReady_frame t i, ?_⟩
    rw [h, txStep_of_not_due (by simpa using hbusy) (by rwa [txReady_txReady]), txReady_txReady]

/-- Settles O46: the step reads the element at its cursor (R156), and only a fire reads it. -/
theorem txStepReadsOnlyTheElementAtItsCursor : Obligations.TxStepReadsOnlyTheElementAtItsCursor := by
  refine fun m n t i => ⟨fun hread => txStep_congr_memory t fun _ => hread, fun hquiet => ?_⟩
  by_cases hidle : i.txCur = i.txLen
  · rw [txStep_of_idle hidle, txStep_of_idle hidle]
  · have hdue := (txDue_eq_false_iff t (txReady t i)).mpr (hquiet.resolve_left hidle)
    rw [txStep_of_not_due hidle hdue, txStep_of_not_due hidle hdue]

/-! ### R160: the absolute schedule -/

/-- A fire of a transmission that has read the elements `ds`, at the target those give, appends the element it reads. -/
theorem onSchedule_txFire {ds : List Word} (hcount : i.txCur.toNat = ds.length)
    (hsucc : (i.txCur + 1).toNat = i.txCur.toNat + 1) (htarget : i.txTarget = ds.foldl (· + ·) t0) (m : Memory) :
    OnSchedule t0 (ds ++ [m.read (txElemAddr i)]) (txFire m i) where
  begun := by simp
  count := by rw [txFire_txCur, hsucc, hcount, List.length_append, List.length_singleton]
  target := by simp [htarget]
  level := by
    have hflip : ds.length % 2 = 0 ↔ (ds.length + 1) % 2 = 1 := by omega
    simp [levelAt_eq, hcount, hflip]

theorem OnSchedule.txCur_ne_zero {ds : List Word} (h : OnSchedule t0 ds i) : i.txCur ≠ 0 := by
  intro h0
  have hlen := h.count
  rw [h0] at hlen
  exact h.begun (List.length_eq_zero_iff.mp hlen.symm)

/-- The first TX step of a transmission arms and fires (R151, R159, R160). -/
theorem txStep_begins_schedule (hcur : i.txCur = 0) (hlen : i.txLen ≠ 0) (m : Memory) (t : Word) :
    OnSchedule t [m.read i.txBase] (txStep m t i) := by
  have hbusy : i.txCur ≠ i.txLen := fun h => hlen (h.symm.trans hcur)
  have haddr : txElemAddr (txReady t i) = i.txBase := by simp [txElemAddr, hcur]
  have hfire := onSchedule_txFire (i := txReady t i) (ds := []) (t0 := t) (by simp [hcur]) (by simp [hcur])
    (by simp [txReady_armed t hcur]) m
  rwa [haddr, ← txStep_of_due hbusy (txDue_armed t hcur)] at hfire

/-- A later TX step keeps the schedule, or fires and appends the element at the cursor (R160). -/
theorem OnSchedule.txStep {ds : List Word} (h : OnSchedule t0 ds i) (hle : i.txCur ≤ i.txLen) (m : Memory) (t : Word) :
    ((txStep m t i).txCur = i.txCur ∧ OnSchedule t0 ds (txStep m t i)) ∨
      ((txStep m t i).txCur = i.txCur + 1 ∧ OnSchedule t0 (ds ++ [m.read (txElemAddr i)]) (txStep m t i)) := by
  have hcur := h.txCur_ne_zero
  have htarget : (txReady t i).txTarget = ds.foldl (· + ·) t0 := (txReady_txTarget hcur t).trans h.target
  obtain ⟨-, hs⟩ | ⟨hbusy, -, hs⟩ | ⟨-, -, hs⟩ := txStep_cases m t i <;> rw [hs]
  · exact .inl ⟨rfl, h⟩
  · have hfire := onSchedule_txFire (i := txReady t i) (by simpa using h.count)
      (by simpa using (txCur_succ hle hbusy).1) htarget m
    exact .inr ⟨by simp, by simpa using hfire⟩
  · exact .inl ⟨by simp, h.begun, by simpa using h.count, htarget, by simpa using h.level⟩

/-- Settles O60: the first step begins the schedule, and each later one keeps it. -/
theorem txStepKeepsTheSchedule : Obligations.TxStepKeepsTheSchedule := fun m t _ hle =>
  ⟨fun hcur hlen => txStep_begins_schedule hcur hlen m t, fun _ _ h => h.txStep hle m t⟩

/-- The first k elements of the tx buffer. -/
def txElems (m : Memory) (i : Instance) (k : Nat) : List Word :=
  (List.range k).map (txElem m i)

theorem txElems_succ (m : Memory) (i : Instance) (k : Nat) :
    txElems m i (k + 1) = txElems m i k ++ [txElem m i k] := by
  simp [txElems, List.range_succ]

@[simp] theorem txElem_txStep (m : Memory) (t : Word) (i : Instance) : txElem m (txStep m t i) = txElem m i := by
  funext k; simp [txElem]

/-- The element at the cursor, by its index (R156, R160). -/
theorem txElem_txCur (m : Memory) (i : Instance) : txElem m i i.txCur.toNat = m.read (txElemAddr i) := by
  simp [txElem, txElemAddr]

/-- The elements add up to `S_k` modulo 2^32 (R160). -/
theorem foldl_txElems (m : Memory) (i : Instance) (t0 : Word) (k : Nat) :
    (txElems m i k).foldl (· + ·) t0 = t0 + BitVec.ofNat 32 (txSum m i k) := by
  induction k with
  | zero => simp [txElems, txSum]
  | succ k ih => simp [txElems_succ, ih, txSum, BitVec.ofNat_add, BitVec.add_assoc]

/-- The elements read so far are those below the cursor. -/
def OnTable (m : Memory) (t0 : Word) (i : Instance) : Prop :=
  OnSchedule t0 (txElems m i i.txCur.toNat) i

theorem onTable_first_txStep (hcur : i.txCur = 0) (hlen : i.txLen ≠ 0) (m : Memory) (t : Word) :
    OnTable m t (txStep m t i) := by
  have h := txStep_begins_schedule hcur hlen m t
  have hone : (txStep m t i).txCur.toNat = 1 := h.count
  simpa [OnTable, hone, txElems, txElem] using h

theorem OnTable.txStep (h : OnTable m t0 i) (hle : i.txCur ≤ i.txLen) (t : Word) : OnTable m t0 (txStep m t i) := by
  obtain ⟨hcur, hs⟩ | ⟨hcur, hs⟩ := OnSchedule.txStep h hle m t
  · simpa [OnTable, txElems, hcur] using hs
  · have hcount : (Machine.txStep m t i).txCur.toNat = i.txCur.toNat + 1 := by simpa [txElems] using hs.count
    rw [← txElem_txCur, ← txElems_succ] at hs
    simpa [OnTable, txElems, hcount] using hs

theorem OnTable.txRun (h : OnTable m t0 i) (hle : i.txCur ≤ i.txLen) (ts : List Word) :
    OnTable m t0 (txRun m i ts) ∧ (txRun m i ts).txCur ≤ i.txLen := by
  induction ts generalizing i with
  | nil => exact ⟨h, hle⟩
  | cons t ts ih =>
    have hstep : (Machine.txStep m t i).txCur ≤ (Machine.txStep m t i).txLen := by
      simpa using txStep_txCur_le m t hle
    simpa [Machine.txRun] using ih (h.txStep hle t) hstep

@[simp] theorem txElem_txRun (m : Memory) (i : Instance) (ts : List Word) :
    txElem m (txRun m i ts) = txElem m i := by
  induction ts generalizing i with
  | nil => rfl
  | cons t ts ih => rw [txRun, ih, txElem_txStep]

/-- Settles O42: the first sample puts the transmission on the schedule of the table, and the later ones keep it there. -/
theorem transmissionKeepsTheAbsoluteSchedule : Obligations.TransmissionKeepsTheAbsoluteSchedule := by
  intro m i t0 ts hcur hlen
  have hle : i.txCur ≤ i.txLen := hcur ▸ Nat.zero_le _
  have hfirstLe : (txStep m t0 i).txCur ≤ (txStep m t0 i).txLen := by simpa using txStep_txCur_le m t0 hle
  obtain ⟨hrun, hrunLe⟩ := (onTable_first_txStep hcur hlen m t0).txRun hfirstLe ts
  rw [← txRun, txStep_txLen] at hrunLe
  rw [← txRun] at hrun
  generalize hr : txRun m i (t0 :: ts) = r at hrun hrunLe ⊢
  have helems : txElems m r = txElems m i := by funext k; simp [txElems, ← hr]
  rw [OnTable, helems] at hrun
  have hpos : 1 ≤ r.txCur.toNat := Nat.one_le_iff_ne_zero.mpr fun h => hrun.txCur_ne_zero (BitVec.eq_of_toNat_eq h)
  exact ⟨hpos, hrunLe, hrun.target.trans (foldl_txElems m i t0 _), by simpa [txElems] using hrun.level⟩

/-! ### R161, R165, R166: a run in which nothing changes -/

/-- A record that the step leaves as it is at every sample is left as it is by the run. -/
theorem txRun_of_fixed {ts : List Word} (h : ∀ t ∈ ts, txStep m t i = i) : txRun m i ts = i := by
  induction ts with
  | nil => rfl
  | cons t ts ih =>
    rw [txRun, h t List.mem_cons_self]
    exact ih fun u hu => h u (List.mem_cons_of_mem t hu)

/-- Settles O43: the record is idle from that fire on. -/
theorem lastIntervalIsNotWaitedOut : Obligations.LastIntervalIsNotWaitedOut := by
  intro m t i ts _ hlast hfired
  exact txRun_of_fixed fun _ _ => txStep_of_idle (by rw [hfired, hlast, txStep_txLen])

/-- Settles O44: below its target, or at or above its guard, a pending transition waits and nothing is written (R150). -/
theorem missedWindowsDelayATransition : Obligations.MissedWindowsDelayATransition := by
  refine fun m i ts hbusy hcur => ⟨fun hguard hearly => txRun_of_fixed fun t ht => ?_,
    fun hguard hwrap => txRun_of_fixed fun t ht => ?_⟩
  · obtain ⟨-, -, -, hwaits, -⟩ := txStepMeaning m t i
    rw [hwaits hbusy hcur (.inl hguard) (hearly t ht), ← hguard]
  · obtain ⟨-, -, -, -, hwaits⟩ := txStepMeaning m t i
    exact hwaits hbusy hcur hguard (hwrap t ht)

end Sys2Proof.Machine
end

/-! ## Commands on a handle

A command's frame decodes where its reserved fields are zero, and is otherwise illegal (30_encoding.md R91, R94, R252). A command on a
handle answers BAD_HANDLE and writes nothing (R254), or acts on the record it names: a query answers (`withInstance_query_frame`), and a
control answers and puts the record back rewritten (`RewritesAtMost`). -/

section
namespace Sys2Proof.Machine

variable {h : Byte} {s t : State} {i : Instance} {w : Instance → Instance}

/-! ### R93, R94, R252: encodings -/

theorem performCommand_of_not_wellFormed {x : Fields} (hx : x.wellFormed = false) (s : State) :
    performCommand (frameOf x) s = .next { s with response := some ⟨.illegalCommand, 0⟩ } := by
  simp only [performCommand, decode_frameOf_of_not_wellFormed hx]
  rfl

/-- A command's encoding, from the fields it assembles to and the reserved fields of its opcode. -/
theorem encodesAs_of_fields {op : Byte} {reserved : Fields → Bool} {mk : Fields → Instr}
    (hzero : ∀ x : Fields, x.op = op → x.reservedZero = reserved x)
    (hfields : ∀ x : Fields, x.op = op → reserved x = true → x = instrFields (mk x)) : EncodesAs op reserved mk := by
  refine fun x hop => ⟨fun hx => ?_, fun hx => performCommand_of_not_wellFormed ?_⟩
  · exact decode_frameOf_eq_some_iff.mpr (hfields x hop hx)
  · rw [Fields.wellFormed, hzero x hop, hx, Bool.and_false]

theorem encodesAs_handleOnly {op : Byte} {mk : Byte → Instr} (h₁ : op ≠ 1) (h₅ : op ≠ 5)
    (hmk : ∀ h, instrFields (mk h) = ⟨op, h, 0, 0, 0, 0, 0⟩) : EncodesAs op onlyH (fun x => mk x.h) := by
  refine encodesAs_of_fields (fun x hop => reservedZero_of_handleOnly (hop ▸ h₁) (hop ▸ h₅)) fun x hop hx => ?_
  rw [hmk]
  simpa [onlyH, fields_eq_iff, hop, and_assoc] using hx

theorem encodesAs_txStart : EncodesAs 0x05 (fun x => x.p0 == 0 && x.p1 == 0 && x.b == 0 && x.c == 0)
    (fun x => .txStart x.h x.a) := by
  refine encodesAs_of_fields (fun x hop => reservedZero_of_txStart hop) fun x hop hx => ?_
  simpa [instrFields, fields_eq_iff, hop, and_assoc] using hx

/-! ### R254: BAD_HANDLE -/

theorem withInstance_badHandle (act : Instance → State) (hs : s.nInst ≤ h.toNat) :
    withInstance h s act = { s with response := some ⟨.badHandle, 0⟩ } := by
  rw [withInstance_none act hs, raise_eq_of_ne (by decide)]

theorem answersBadHandle_of_withInstance {mk : Byte → Instr} {act : Byte → State → Instance → State}
    (hexec : ∀ h s, exec (mk h) s = .next (withInstance h s (act h s))) : AnswersBadHandle mk := by
  intro h s hs
  rw [hexec, withInstance_badHandle _ hs]

/-! ### R140, R142: TX_START and TX_CURSOR -/

theorem exec_txStart_of_too_long {n : Word} (hi : s.insts[h.toNat]? = some i) (hn : i.txSize < n) :
    exec (.txStart h n) s = .next { s with response := some ⟨.txLengthInvalid, 0⟩ } := by
  simp only [exec, execTxStart, withInstance_some _ hi, if_pos hn, raise_eq_of_ne, ne_eq, reduceCtorEq, not_false_eq_true]

theorem exec_txStart_of_fits {n : Word} (hi : s.insts[h.toNat]? = some i) (hn : n ≤ i.txSize) :
    exec (.txStart h n) s = .next (respond .ok 0 (s.setInst h.toNat (txRestart n i))) := by
  simp only [exec, execTxStart, withInstance_some _ hi, if_neg (BitVec.not_lt.mpr hn), handleOf_toNat]

/-- Settles O14: its row of the opcode table, and the three ends of its rule. -/
theorem txStartMeaning : Obligations.TxStartMeaning :=
  ⟨encodesAs_txStart, fun _ => answersBadHandle_of_withInstance fun _ _ => rfl,
    fun _ _ _ _ hi hn => exec_txStart_of_too_long hi hn, fun _ _ _ _ hi hn => exec_txStart_of_fits hi hn⟩

/-- Settles O15: its row of the opcode table, and the cursor answered. -/
theorem txCursorMeaning : Obligations.TxCursorMeaning := by
  refine ⟨encodesAs_handleOnly (by decide) (by decide) fun _ => rfl,
    answersBadHandle_of_withInstance fun _ _ => rfl, fun h s i hi => ?_⟩
  exact congrArg _ (withInstance_some _ hi)

/-! ### Frames of the commands on a handle -/

theorem withInstance_query_frame (h : Byte) (s : State) (v : Instance → Word) :
    ∃ r, withInstance h s (fun i => respond .ok (v i) s) = { s with response := r } := by
  obtain ⟨hs, -⟩ | ⟨i, -, hw⟩ := withInstance_cases (s := s) h fun i => respond .ok (v i) s
  · exact ⟨_, withInstance_badHandle _ hs⟩
  · exact ⟨_, hw⟩

/-- Settles O21: each of the three answers a word of its record, or BAD_HANDLE. -/
theorem queriesLeaveTheMachineAlone : Obligations.QueriesLeaveTheMachineAlone := by
  rintro h _ s _ (rfl | rfl | rfl) ⟨⟩
  all_goals
    obtain ⟨r, hr⟩ := withInstance_query_frame h s _
    exact hr ▸ ⟨rfl, fun _ => rfl⟩

/-- The command has answered and written nothing else, or has put the record at `g` back with `w` applied to it. -/
def RewritesAtMost (g : Nat) (w : Instance → Instance) (s t : State) : Prop :=
  t = { s with response := t.response } ∨
    ∃ i, s.insts[g]? = some i ∧ t = { s with insts := s.insts.set g (w i), response := t.response }

theorem withInstance_rewritesAtMost {act : Instance → State}
    (hact : ∀ i, s.insts[h.toNat]? = some i → RewritesAtMost h.toNat w s (act i)) :
    RewritesAtMost h.toNat w s (withInstance h s act) := by
  obtain ⟨hs, -⟩ | ⟨i, hi, hw⟩ := withInstance_cases (s := s) h act
  · exact .inl (by rw [withInstance_badHandle act hs])
  · exact hw ▸ hact i hi

theorem withInstance_setInst_rewritesAtMost (h : Byte) (s : State) (w : Instance → Instance) :
    RewritesAtMost h.toNat w s (withInstance h s fun i => respond .ok 0 (s.setInst (handleOf h).toNat (w i))) :=
  withInstance_rewritesAtMost fun i hi => .inr ⟨i, hi, by rw [handleOf_toNat]; rfl⟩

theorem txStart_rewritesAtMost {n : Word} (ht : exec (.txStart h n) s = .next t) :
    RewritesAtMost h.toNat (txRestart n) s t := by
  cases ht
  refine withInstance_rewritesAtMost fun i hi => ?_
  split
  · exact .inl rfl
  · exact .inr ⟨i, hi, by rw [handleOf_toNat]; rfl⟩

/-- Everything but the response and the record at `g` stays. -/
theorem RewritesAtMost.frame {g : Nat} (ht : RewritesAtMost g w s t) :
    t = { s with insts := t.insts, response := t.response } ∧ (∀ a, t.shm.read a = s.shm.read a) ∧
      t.nInst = s.nInst ∧ ∀ k, k ≠ g → t.insts[k]? = s.insts[k]? := by
  obtain ht | ⟨i, hi, ht⟩ := ht <;> rw [ht]
  · exact ⟨rfl, fun _ => rfl, rfl, fun _ _ => rfl⟩
  · exact ⟨rfl, fun _ => rfl, by simp [State.nInst], fun k hk => List.getElem?_set_ne hk.symm⟩

/-- The record at `g` stays, or is rewritten. -/
theorem RewritesAtMost.record {g : Nat} {j : Instance} (ht : RewritesAtMost g w s t) (hi : s.insts[g]? = some i)
    (hj : t.insts[g]? = some j) : j = i ∨ j = w i := by
  obtain ht | ⟨k, hk, ht⟩ := ht <;> rw [ht] at hj
  · exact .inl (Option.some.inj (hj.symm.trans hi))
  · obtain rfl : i = k := Option.some.inj (hi.symm.trans hk)
    rw [List.getElem?_set_self (inst_lt hi)] at hj
    exact .inr (Option.some.inj hj).symm

theorem startLoop_frame (i : Instance) :
    startLoop i = { i with running := (startLoop i).running, loopActive := (startLoop i).loopActive } := by
  unfold startLoop; split <;> rfl

/-- What relates every record to itself and to its rewriting relates the record at `g` before and after. -/
theorem RewritesAtMost.frame_and_record {g : Nat} {P : Instance → Instance → Prop} (ht : RewritesAtMost g w s t)
    (hkept : ∀ i, P i i) (hrewritten : ∀ i, P i (w i)) :
    t = { s with insts := t.insts, response := t.response } ∧ (∀ a, t.shm.read a = s.shm.read a) ∧
      t.nInst = s.nInst ∧ (∀ k, k ≠ g → t.insts[k]? = s.insts[k]?) ∧
      ∀ i j, s.insts[g]? = some i → t.insts[g]? = some j → P i j := by
  obtain ⟨hrest, hshm, hcount, hothers⟩ := ht.frame
  refine ⟨hrest, hshm, hcount, hothers, fun i j hi hj => ?_⟩
  obtain rfl | rfl := ht.record hi hj
  · exact hkept j
  · exact hrewritten i

/-- Settles O22: each puts back one record, with the fields of its rule written. -/
theorem controlsWriteOnlyTheirOwnFields : Obligations.ControlsWriteOnlyTheirOwnFields := by
  rintro h n _ s t (rfl | rfl | rfl | rfl) ht
  · have hw : RewritesAtMost h.toNat startLoop s t := by
      cases ht; exact withInstance_setInst_rewritesAtMost h s startLoop
    exact hw.frame_and_record (fun _ => ⟨fun _ => rfl, nofun, nofun, nofun⟩)
      fun i => ⟨fun _ => startLoop_frame i, nofun, nofun, nofun⟩
  · have hw : RewritesAtMost h.toNat requestStop s t := by
      cases ht; exact withInstance_setInst_rewritesAtMost h s requestStop
    exact hw.frame_and_record (fun _ => ⟨nofun, fun _ => rfl, nofun, nofun⟩)
      fun _ => ⟨nofun, fun _ => rfl, nofun, nofun⟩
  · exact (txStart_rewritesAtMost ht).frame_and_record (fun _ => ⟨nofun, nofun, fun _ => rfl, nofun⟩)
      fun _ => ⟨nofun, nofun, fun _ => rfl, nofun⟩
  · have hw : RewritesAtMost h.toNat rxRewind s t := by
      cases ht; exact withInstance_setInst_rewritesAtMost h s rxRewind
    exact hw.frame_and_record (fun _ => ⟨nofun, nofun, nofun, fun _ => rfl⟩)
      fun _ => ⟨nofun, nofun, nofun, fun _ => rfl⟩

/-! ### R143, R159, R269: the loop step and the transmitter -/

theorem loopStep_getElem?_self {g : Nat} (hi : s.insts[g]? = some i) (input : RxInput) :
    (loopStep g input s).insts[g]? = some (loopRecord s.clk input i s.shm) := by
  rw [loopStep_eq input hi]
  exact List.getElem?_set_self (inst_lt hi)

/-- The loop step of a running instance leaves the record of its TX step, but for the receive fields (R231, R232). -/
theorem loopRecord_of_running (hactive : i.loopActive = true) (hrunning : i.running = true) (t : Word) (input : RxInput)
    (m : Memory) : loopRecord t input i m = { txStep m t i with
      rxCur := (loopRecord t input i m).rxCur, rxLast := (loopRecord t input i m).rxLast } := by
  have hrecord : loopRecord t input i m = (rxStep t (pinSample i input) (txStep m t i) m).1 := by
    simp [loopRecord, iteration, hactive, hrunning]
  rw [hrecord]
  exact rxStep_frame ..

/-- Settles O40: the loop step runs a TX step at cursor 0, which arms and fires (R150). -/
theorem firstTransitionFiresAtOnce : Obligations.FirstTransitionFiresAtOnce := by
  intro h n input s i hi hrunning hactive hpos hfits
  have hrestarted : (respond .ok 0 (s.setInst h.toNat (txRestart n i))).insts[h.toNat]? = some (txRestart n i) :=
    List.getElem?_set_self (inst_lt hi)
  obtain ⟨-, harms, -⟩ := txStepMeaning s.shm s.clk (txRestart n i)
  refine ⟨_, _, _, exec_txStart_of_fits hi hfits, rfl, loopStep_getElem?_self hrestarted input, ?_⟩
  rw [loopRecord_of_running (i := txRestart n i) hactive hrunning, respond_clk, respond_shm, setInst_clk, setInst_shm,
    harms hpos.symm rfl]
  exact ⟨rfl, rfl, rfl, rfl⟩

theorem loopStep_getElem?_of_inactive {g : Nat} (hi : s.insts[g]? = some i) (hidle : i.loopActive = false) (k : Nat)
    (input : RxInput) : (loopStep k input s).insts[g]? = some i := by
  obtain ⟨hs, -⟩ | ⟨j, hj, hactive, hs⟩ := loopStep_cases (s := s) k input
  · rwa [hs]
  · have hne : k ≠ g := by
      rintro rfl
      obtain rfl : i = j := Option.some.inj (hi.symm.trans hj)
      exact Bool.false_ne_true (hidle.symm.trans hactive)
    obtain ⟨-, hs⟩ | ⟨-, hs⟩ := hs <;> rw [hs]
    · exact (List.getElem?_set_ne hne).trans hi
    · exact (List.getElem?_set_ne hne).trans hi

/-- Settles O59: of the events that are no command, a loop step alone writes a record, and its own loop is active. -/
theorem inactiveInstanceIsFrozen : Obligations.InactiveInstanceIsFrozen := by
  intro g s t i hi hidle hevent hstep
  have hi' : (takeEvent s).insts[g]? = some i := by simpa using hi
  unfold step at hstep
  cases he : nextEvent s with
  | command f => exact absurd he (hevent f)
  | tick => rw [he] at hstep; cases hstep; simpa using hi
  | iter k input => rw [he] at hstep; cases hstep; exact loopStep_getElem?_of_inactive hi' hidle k input
  | poke a v | describe handle d => rw [he] at hstep; cases hstep; exact hi'

end Sys2Proof.Machine
end

/-! ## The timing theorem

Samples are unwrapped here: the counter at time x holds `BitVec.ofNat 32 x`, and `x / 2 ^ 32` counts its wraps. While a transition is
pending, the guard tells whether the counter has still to wrap before the due time (`GuardTells`, R155, R157), so the test of step 3
compares the times themselves. Polled within R163's assumptions, a transmission stands at every sample where the times say (`OnTime`). -/

section
namespace Sys2Proof.Machine

variable {i r : Instance} {m : Memory} {P x x' E D k j : Nat} {c : Nat → Nat}

/-! ### R155, R157: the guard and the due time -/

/-- At time x the guard g of a transition due at D, after one due at E: clear where the counter has wrapped as often as at D, and else
the earlier due time, modulo 2^32, with the one wrap to come. -/
def GuardTells (P x E D : Nat) (g : Word) : Prop :=
  (g = 0 ∧ x / 2 ^ 32 = D / 2 ^ 32) ∨
    (g = BitVec.ofNat 32 E ∧ P ≤ E % 2 ^ 32 ∧ E ≤ x ∧ x / 2 ^ 32 = E / 2 ^ 32 ∧ D / 2 ^ 32 = E / 2 ^ 32 + 1)

/-- Step 2 keeps the guard true to the time: a first sample after the wrap is below P, so below the guard (R152, R163). -/
theorem GuardTells.txReady (h : GuardTells P x E D r.txGuard) (hcur : r.txCur ≠ 0) (hle : x ≤ x') (hnext : x' ≤ x + P)
    (hlast : x' / 2 ^ 32 ≤ D / 2 ^ 32) : GuardTells P x' E D (txReady (BitVec.ofNat 32 x') r).txGuard := by
  rw [txReady_txGuard hcur]
  obtain ⟨hg, hturn⟩ | ⟨hg, hpos, hx, hturn, hD⟩ := h
  · exact .inl ⟨by simp [hg], by omega⟩
  · have hseen : BitVec.ofNat 32 x' < r.txGuard ↔ x' % 2 ^ 32 < E % 2 ^ 32 := by
      rw [hg, BitVec.lt_def, BitVec.toNat_ofNat, BitVec.toNat_ofNat]
    by_cases hwrapped : x' / 2 ^ 32 = E / 2 ^ 32
    · rw [if_neg (by rw [hseen]; omega)]
      exact .inr ⟨hg, hpos, by omega, hwrapped, hD⟩
    · rw [if_pos (by rw [hseen]; omega)]
      exact .inl ⟨rfl, by omega⟩

/-- Where the guard is true to the time, step 3 compares the times (R153). -/
theorem GuardTells.txDue_iff (h : GuardTells P x E D r.txGuard) (hP : 0 < P) (htarget : r.txTarget = BitVec.ofNat 32 D) :
    txDue (BitVec.ofNat 32 x) r = true ↔ D ≤ x := by
  rw [Machine.txDue_iff, htarget, BitVec.le_def, BitVec.toNat_ofNat, BitVec.toNat_ofNat]
  obtain ⟨hg, hturn⟩ | ⟨hg, hpos, -, hturn, hD⟩ := h
  · simp only [hg, true_and]
    omega
  · have hne : r.txGuard ≠ 0 := by
      intro h0
      have hE : E % 2 ^ 32 = 0 := by rw [← BitVec.toNat_ofNat, ← hg, h0]; rfl
      omega
    simp only [hne, false_and, false_iff]
    omega

/-- A fire leaves a guard that is true to the time, for the due time after the one that was reached (R155 to R157). -/
theorem guardTells_txFire (htarget : r.txTarget = BitVec.ofNat 32 D) (hdue : D ≤ x) (hturn : x / 2 ^ 32 = D / 2 ^ 32)
    (hcarry : 2 ^ 32 ≤ D % 2 ^ 32 + (m.read (txElemAddr r)).toNat → P ≤ D % 2 ^ 32) :
    GuardTells P x D (D + (m.read (txElemAddr r)).toNat) (txFire m r).txGuard := by
  have hd := (m.read (txElemAddr r)).isLt
  rw [txFire, txClearGuard_txAdvance_txGuard, htarget, BitVec.toNat_ofNat]
  split
  case isTrue hfits => exact .inl ⟨rfl, by omega⟩
  case isFalse => exact .inr ⟨rfl, hcarry (by omega), hdue, hturn, by omega⟩

/-! ### R163: a polled transmission -/

theorem dueAt_succ (m : Memory) (i : Instance) (c : Nat → Nat) (k : Nat) :
    dueAt m i c (k + 1) = dueAt m i c k + (txElem m i k).toNat := (Nat.add_assoc ..).symm

theorem dueAt_mono (m : Memory) (i : Instance) (c : Nat → Nat) : Monotone (dueAt m i c) :=
  monotone_nat_of_le_succ fun k => dueAt_succ m i c k ▸ Nat.le_add_right ..

/-- At time x, transition k of the transmission that began from i is the last that has fired, and the next, if there is one, is not due
yet and awaited at its due time. -/
structure OnTime (P : Nat) (m : Memory) (i : Instance) (c : Nat → Nat) (x k : Nat) (r : Instance) : Prop where
  base : r.txBase = i.txBase
  len : r.txLen = i.txLen
  cursor : r.txCur.toNat = k + 1
  within : k < i.txLen.toNat
  fired : dueAt m i c k ≤ x
  early : k + 1 < i.txLen.toNat → x < dueAt m i c (k + 1)
  target : k + 1 < i.txLen.toNat → r.txTarget = BitVec.ofNat 32 (dueAt m i c (k + 1))
  guard : k + 1 < i.txLen.toNat → GuardTells P x (dueAt m i c k) (dueAt m i c (k + 1)) r.txGuard

/-- A fire that is less than P late, the counter not having wrapped meanwhile, leaves the transmission on time. -/
theorem OnTime.of_txFire (hpolled : PolledWithin P i.txLen.toNat m i c j) (hbase : r.txBase = i.txBase)
    (hlen : r.txLen = i.txLen) (hcur : r.txCur.toNat = k) (hk : k < i.txLen.toNat)
    (htarget : r.txTarget = BitVec.ofNat 32 (dueAt m i c k)) (hdue : dueAt m i c k ≤ x) (hlate : x < dueAt m i c k + P)
    (hturn : x / 2 ^ 32 = dueAt m i c k / 2 ^ 32) : OnTime P m i c x k (txFire m r) := by
  have helem : m.read (txElemAddr r) = txElem m i k := by rw [← txElem_txCur, hcur, txElem, hbase, txElem]
  exact {
    base := by simpa using hbase
    len := by simpa using hlen
    cursor := by have := i.txLen.isLt; rw [txFire_txCur]; bv_omega
    within := hk
    fired := hdue
    early := fun hmore => by have := hpolled.intervals k hmore; rw [dueAt_succ]; omega
    target := fun _ => by simp [htarget, helem, dueAt_succ, BitVec.ofNat_add]
    guard := fun hmore => by
      rw [dueAt_succ, ← helem]
      exact guardTells_txFire htarget hdue hturn (helem ▸ hpolled.guard k hmore) }

/-- The first sample fires transition 0 (R159). -/
theorem onTime_first (hpolled : PolledWithin P i.txLen.toNat m i c j) (hcur : i.txCur = 0) (hlen : i.txLen ≠ 0) :
    OnTime P m i c (c 0) 0 (txStep m (BitVec.ofNat 32 (c 0)) i) := by
  have hbusy : i.txCur ≠ i.txLen := fun h => hlen (h.symm.trans hcur)
  have hpos : 0 < i.txLen.toNat := Nat.pos_of_ne_zero fun h => hlen (BitVec.eq_of_toNat_eq h)
  have hP := hpolled.period
  rw [txStep_of_due hbusy (txDue_armed _ hcur)]
  exact .of_txFire hpolled (by simp) (by simp) (by simp [hcur]) hpos (by rw [txReady_armed _ hcur]; rfl) (Nat.le_refl _)
    (Nat.lt_add_of_pos_right hP) rfl

/-- Each next sample, at most P later, fires the awaited transition where it is due and otherwise waits on. -/
theorem OnTime.txStep (hpolled : PolledWithin P i.txLen.toNat m i c j) (h : OnTime P m i c x k r) (hle : x ≤ x')
    (hnext : x' ≤ x + P) : ∃ k', OnTime P m i c x' k' (txStep m (BitVec.ofNat 32 x') r) := by
  obtain ⟨hbase, hlen, hcursor, hwithin, hfired, hearly, htarget, hguard⟩ := h
  by_cases hmore : k + 1 < i.txLen.toNat
  · have hcur : r.txCur ≠ 0 := fun h0 => by rw [h0] at hcursor; exact absurd hcursor.symm (Nat.succ_ne_zero k)
    have hbusy : r.txCur ≠ r.txLen := fun heq => by rw [heq, hlen] at hcursor; omega
    have hwindow := hpolled.window (k + 1) (Nat.le_add_left ..) hmore
    have hx := hearly hmore
    have hguard' := (hguard hmore).txReady hcur hle hnext (by omega)
    have htarget' : (txReady (BitVec.ofNat 32 x') r).txTarget = _ := (txReady_txTarget hcur _).trans (htarget hmore)
    have hdue := hguard'.txDue_iff hpolled.period htarget'
    by_cases hreached : dueAt m i c (k + 1) ≤ x'
    · rw [txStep_of_due hbusy (hdue.mpr hreached)]
      exact ⟨k + 1, .of_txFire hpolled (by simpa using hbase) (by simpa using hlen) (by simpa using hcursor) hmore htarget'
        hreached (by omega) (by omega)⟩
    · rw [txStep_of_not_due hbusy (Bool.eq_false_iff.mpr fun h => hreached (hdue.mp h))]
      exact ⟨k, by simpa using hbase, by simpa using hlen, by simpa using hcursor, hwithin, hfired.trans hle,
        fun _ => Nat.not_le.mp hreached, fun _ => htarget', fun _ => hguard'⟩
  · have hidle : r.txCur = r.txLen := BitVec.eq_of_toNat_eq (by rw [hlen]; omega)
    rw [txStep_of_idle hidle]
    exact ⟨k, hbase, hlen, hcursor, hwithin, hfired.trans hle, fun h => absurd h hmore, fun h => absurd h hmore,
      fun h => absurd h hmore⟩

theorem onTime_txAt (hpolled : PolledWithin P i.txLen.toNat m i c j) (hcur : i.txCur = 0) (hlen : i.txLen ≠ 0)
    {l : Nat} (hl : l ≤ j) : ∃ k, OnTime P m i c (c l) k (txAt m i c l) := by
  induction l with
  | zero => exact ⟨0, onTime_first hpolled hcur hlen⟩
  | succ l ih =>
    obtain ⟨k, hk⟩ := ih (Nat.le_of_succ_le hl)
    exact hk.txStep hpolled (hpolled.forward l hl) (hpolled.spacing l hl)

/-- On time, a transition has fired exactly when its due time has come. -/
theorem OnTime.fired_iff (h : OnTime P m i c x k r) {n : Nat} (hn : n < i.txLen.toNat) :
    n < r.txCur.toNat ↔ dueAt m i c n ≤ x := by
  rw [h.cursor]
  constructor
  · intro hlt
    exact (dueAt_mono m i c (Nat.le_of_lt_succ hlt)).trans h.fired
  · intro hdue
    by_contra hge
    have hnext : k + 1 ≤ n := Nat.not_lt.mp hge
    have := dueAt_mono m i c hnext
    have := h.early (Nat.lt_of_le_of_lt hnext hn)
    omega

/-- Settles O45: a transition fires at the first sample due, and the sample before, less than P ticks earlier, was not. -/
theorem polledTransmissionIsOnTime : Obligations.PolledTransmissionIsOnTime := by
  intro P m i c j hcur hlen hpolled
  have hiff : ∀ l ≤ j, ∀ k < i.txLen.toNat, k < (txAt m i c l).txCur.toNat ↔ dueAt m i c k ≤ c l := by
    intro l hl k hk
    obtain ⟨_, hontime⟩ := onTime_txAt hpolled hcur hlen hl
    exact hontime.fired_iff hk
  refine ⟨hiff, fun l hl k hk hbefore hafter => ?_⟩
  have hdue := (hiff (l + 1) hl k hk).mp hafter
  have hearly : ¬ dueAt m i c k ≤ c l := fun h => hbefore ((hiff l hl.le k hk).mpr h)
  have hspacing := hpolled.spacing l hl
  exact ⟨hdue, by omega⟩

end Sys2Proof.Machine
end

/-! ## Receive

A receive step records one edge or writes nothing (`rxStep_of_edge`, `rxStep_of_no_edge`; 42_receive.md R183). After it the cursor's
parity follows the line (R192), and a run of steps from cursor 0 keeps the ring in step with the records made so far (`RingHolds`, R191).
In loopback the line shows an iteration's edge to the next iteration first, so that one records it (R193). -/

section
namespace Sys2Proof.Machine

variable {h : Byte} {s t : State} {i : Instance} {m : Memory} {lvl : Level} {log : List Word}

/-! ### R180 to R182, R220 to R222: the commands -/

/-- Settles O16: its row of the opcode table, and the cursor answered. -/
theorem rxCursorMeaning : Obligations.RxCursorMeaning := by
  refine ⟨encodesAs_handleOnly (by decide) (by decide) fun _ => rfl,
    answersBadHandle_of_withInstance fun _ _ => rfl, fun h s i hi => ?_⟩
  exact congrArg _ (withInstance_some _ hi)

/-- A command that answers (OK, 0) and puts the record of its handle back with `w` applied to it: RX_RESET, ENABLE and DISABLE. -/
def control (h : Byte) (w : Instance → Instance) (s : State) : State :=
  withInstance h s fun i => respond .ok 0 (s.setInst (handleOf h).toNat (w i))

theorem exec_rxReset (h : Byte) (s : State) : exec (.rxReset h) s = .next (control h rxRewind s) := rfl

theorem exec_enable (h : Byte) (s : State) : exec (.enable h) s = .next (control h startLoop s) := rfl

theorem exec_disable (h : Byte) (s : State) : exec (.disable h) s = .next (control h requestStop s) := rfl

theorem control_of_some (hi : s.insts[h.toNat]? = some i) (w : Instance → Instance) :
    control h w s = respond .ok 0 (s.setInst h.toNat (w i)) := by
  rw [control, withInstance_some _ hi, handleOf_toNat]

theorem control_of_badHandle (hs : s.nInst ≤ h.toNat) (w : Instance → Instance) :
    control h w s = respond .badHandle 0 s :=
  withInstance_badHandle _ hs

/-- A rewriting of records that does nothing more when done again makes a command that does nothing more when given again. -/
theorem control_control {w : Instance → Instance} (hw : ∀ i, w (w i) = w i) (h : Byte) (s : State) :
    control h w (control h w s) = control h w s := by
  cases hi : s.insts[h.toNat]? with
  | none =>
    have hs := (inst_none_iff h.toNat).mp hi
    have hs' : (respond .badHandle 0 s).nInst ≤ h.toNat := hs
    rw [control_of_badHandle hs, control_of_badHandle hs']
    rfl
  | some i =>
    have hi' : (respond .ok 0 (s.setInst h.toNat (w i))).insts[h.toNat]? = some (w i) :=
      List.getElem?_set_self (inst_lt hi)
    rw [control_of_some hi, control_of_some hi', hw]
    simp [respond, State.setInst]

theorem exec_exec_of_control {c : Instr} {w : Instance → Instance} (hexec : ∀ s, exec c s = .next (control h w s))
    (hw : ∀ i, w (w i) = w i) (ht : exec c s = .next t) : exec c t = .next t := by
  rw [hexec] at ht ⊢
  cases ht
  rw [control_control hw]

/-- ENABLE on a running instance writes nothing (R221). -/
theorem startLoop_startLoop (i : Instance) : startLoop (startLoop i) = startLoop i := by
  cases hr : i.running <;> simp [startLoop, hr]

/-- Settles O17: its row of the opcode table, and the record put back with its cursor cleared. -/
theorem rxResetMeaning : Obligations.RxResetMeaning := by
  refine ⟨encodesAs_handleOnly (by decide) (by decide) fun _ => rfl,
    answersBadHandle_of_withInstance fun _ _ => rfl, fun h s i hi => ?_⟩
  rw [exec_rxReset, control_of_some hi]
  rfl

/-- Settles O18: each of the three rewrites its record to one that it would leave as it is. -/
theorem repeatedControlIsIdempotent : Obligations.RepeatedControlIsIdempotent := by
  rintro h _ s t (rfl | rfl | rfl) ht
  · exact exec_exec_of_control (exec_rxReset h) (fun _ => rfl) ht
  · exact exec_exec_of_control (exec_enable h) startLoop_startLoop ht
  · exact exec_exec_of_control (exec_disable h) (fun _ => rfl) ht

/-! ### R183 to R185, R188: one step -/

theorem rxStep_of_edge (hedge : edgeSeen i lvl = true) (t : Word) (m : Memory) :
    rxStep t lvl i m = (rxAdvance t i, m.write (rxElemAddr i) (t - i.rxLast)) := if_pos hedge

theorem rxStep_of_no_edge (hedge : edgeSeen i lvl = false) (t : Word) (m : Memory) :
    rxStep t lvl i m = (i, m) := if_neg (Bool.eq_false_iff.mp hedge)

theorem edgeSeen_eq_false_iff (i : Instance) (lvl : Level) :
    edgeSeen i lvl = false ↔ ¬ (i.rxCur.toNat % 2 = 0 ↔ lvl = 1) := by
  rw [← edgeSeen_iff, Bool.not_eq_true]

/-- Settles O47: the test of R185 is on bit 0 of the cursor, and its two branches are those of R183. -/
theorem rxStepMeaning : Obligations.RxStepMeaning := fun t lvl i m =>
  ⟨fun hedge => rxStep_of_edge ((edgeSeen_iff i lvl).mpr hedge) t m,
    fun hquiet => rxStep_of_no_edge ((edgeSeen_eq_false_iff i lvl).mpr hquiet) t m⟩

/-- Settles O48: the later sample is the earlier plus the elapsed ticks, modulo 2^32, and the subtraction takes it off again. -/
theorem recordHoldsTheElapsedTicks : Obligations.RecordHoldsTheElapsedTicks := by
  intro c₀ c₁ lvl i m hle hlast hedge
  obtain ⟨n, rfl⟩ := Nat.exists_eq_add_of_le hle
  rw [rxStep_of_edge hedge, read_write_same, hlast, BitVec.ofNat_add, Nat.add_sub_cancel_left]
  refine ⟨?_, toNat_elapsed_eq_iff _ n⟩
  rw [BitVec.add_comm, BitVec.add_sub_cancel, BitVec.toNat_ofNat]

/-! ### R192: the cursor's parity -/

/-- Below its capacity a cursor advances without a wrap of the word (R183). -/
theorem rxCurNext_toNat (hlt : i.rxCur < i.rxCap) : (rxCurNext i).toNat = (i.rxCur.toNat + 1) % i.rxCap.toNat := by
  have hsucc : (i.rxCur + 1).toNat = i.rxCur.toNat + 1 := by bv_omega
  rw [rxCurNext, BitVec.toNat_umod, hsucc]

/-- A record flips the cursor's parity, at the ring's end too, the capacity being even (R186). -/
theorem rxCurNext_even_iff (hlt : i.rxCur < i.rxCap) (heven : i.rxCap.toNat % 2 = 0) :
    (rxCurNext i).toNat % 2 = 0 ↔ ¬ i.rxCur.toNat % 2 = 0 := by
  rw [rxCurNext_toNat hlt, Nat.mod_mod_of_dvd _ (Nat.dvd_of_mod_eq_zero heven)]
  omega

/-- A level that is no edge now, or was one and has been recorded, is no edge after the step. -/
theorem edgeSeen_rxStep (hlt : i.rxCur < i.rxCap) (heven : i.rxCap.toNat % 2 = 0) (t : Word) (lvl : Level) (m : Memory) :
    edgeSeen (rxStep t lvl i m).1 lvl = false := by
  obtain ⟨hedge, hs⟩ | ⟨hquiet, hs⟩ := rxStep_cases t lvl i m <;> rw [hs]
  · rw [edgeSeen_eq_false_iff, rxAdvance_rxCur, rxCurNext_even_iff hlt heven, (edgeSeen_iff i lvl).mp hedge]
    exact not_iff_self
  · exact hquiet

/-- Settles O49: the second sample of a level is no edge. -/
theorem cursorParityFollowsTheLine : Obligations.CursorParityFollowsTheLine :=
  fun t t' lvl _ m m' hlt heven => rxStep_of_no_edge (edgeSeen_rxStep hlt heven t lvl m) t' m'

/-! ### R191: the ring -/

/-- The instance and SHM after the records `log`, made from cursor 0: record j is at index j modulo the capacity, unless a later one
has overwritten it. -/
structure RingHolds (log : List Word) (i : Instance) (m : Memory) : Prop where
  cursor : i.rxCur.toNat = log.length % i.rxCap.toNat
  recent : ∀ (j : Nat) (v : Word), log.length ≤ j + i.rxCap.toNat → log[j]? = some v →
    m.read (i.rxBase + BitVec.ofNat 32 (j % i.rxCap.toNat)) = v

theorem ringHolds_nil (hcur : i.rxCur = 0) (m : Memory) : RingHolds [] i m where
  cursor := by simp [hcur]
  recent := by simp

/-- Two indices less than a capacity apart are not the same index of the ring. -/
theorem mod_ne_mod_of_lt {j n c : Nat} (hlt : j < n) (hclose : n < j + c) : j % c ≠ n % c := by
  intro heq
  have hzero := Nat.sub_mod_eq_zero_of_mod_eq heq.symm
  rw [Nat.mod_eq_of_lt (by omega)] at hzero
  omega

/-- Elements of a buffer at different indices are at different addresses. -/
theorem base_add_ne {a b : Nat} (base : Word) (ha : a < 2 ^ 32) (hb : b < 2 ^ 32) (hne : a ≠ b) :
    base + BitVec.ofNat 32 a ≠ base + BitVec.ofNat 32 b := by
  intro heq
  have hnat := congrArg BitVec.toNat ((BitVec.add_right_inj base).mp heq)
  rw [BitVec.toNat_ofNat, BitVec.toNat_ofNat, Nat.mod_eq_of_lt ha, Nat.mod_eq_of_lt hb] at hnat
  exact hne hnat

/-- One more record: the word is written over the record a whole ring back, if there is one (R184). -/
theorem RingHolds.rxAdvance (hring : RingHolds log i m) (hcap : i.rxCap ≠ 0) (t v : Word) :
    RingHolds (log ++ [v]) (rxAdvance t i) (m.write (rxElemAddr i) v) := by
  obtain ⟨hcursor, hrecent⟩ := hring
  have hpos : 0 < i.rxCap.toNat := Nat.pos_of_ne_zero fun h => hcap (BitVec.eq_of_toNat_eq h)
  have hindex : ∀ k, k % i.rxCap.toNat < i.rxCap.toNat := fun k => Nat.mod_lt k hpos
  have hword : ∀ k, k % i.rxCap.toNat < 2 ^ 32 := fun k => (hindex k).trans i.rxCap.isLt
  have haddr : rxElemAddr i = i.rxBase + BitVec.ofNat 32 (log.length % i.rxCap.toNat) := by
    rw [rxElemAddr, ← hcursor, BitVec.ofNat_toNat, BitVec.setWidth_eq]
  refine ⟨?_, fun j w hj hw => ?_⟩
  · have hlt : i.rxCur < i.rxCap := BitVec.lt_def.mpr (hcursor ▸ hindex _)
    simp [rxCurNext_toNat hlt, hcursor]
  · rw [rxAdvance_rxCap, List.length_append, List.length_singleton] at hj
    rw [rxAdvance_rxBase, rxAdvance_rxCap, haddr]
    have hbound : j < log.length + 1 := by simpa using (List.getElem?_eq_some_iff.mp hw).1
    obtain hold | rfl := Nat.lt_succ_iff_lt_or_eq.mp hbound
    · rw [List.getElem?_append_left hold] at hw
      have hne := base_add_ne i.rxBase (hword j) (hword log.length) (mod_ne_mod_of_lt hold hj)
      rw [read_write_other m v hne]
      exact hrecent j w (by omega) hw
    · obtain rfl : v = w := by simpa using hw
      exact read_write_same ..

/-- A run of samples makes its records one after another. -/
theorem RingHolds.rxRun (hring : RingHolds log i m) (hcap : i.rxCap ≠ 0) (ts : List (Word × Level)) :
    RingHolds (log ++ rxLog i ts) (rxRun (i, m) ts).1 (rxRun (i, m) ts).2 := by
  induction ts generalizing log i m with
  | nil => simpa [rxLog, Machine.rxRun] using hring
  | cons sample ts ih =>
    obtain ⟨t, lvl⟩ := sample
    obtain ⟨hedge, hs⟩ | ⟨hquiet, hs⟩ := rxStep_cases t lvl i m
    · have hrun := ih (hring.rxAdvance hcap t (t - i.rxLast)) hcap
      simpa [rxLog, Machine.rxRun, hs, hedge] using hrun
    · simpa [rxLog, Machine.rxRun, hs, hquiet] using ih hring hcap

theorem rxRun_rxBase_rxCap (r : Instance × Memory) (ts : List (Word × Level)) :
    (rxRun r ts).1.rxBase = r.1.rxBase ∧ (rxRun r ts).1.rxCap = r.1.rxCap := by
  induction ts generalizing r with
  | nil => exact ⟨rfl, rfl⟩
  | cons sample ts ih =>
    obtain ⟨t, lvl⟩ := sample
    obtain ⟨hbase, hcap⟩ := ih (rxStep t lvl r.1 r.2)
    rw [rxStep_frame] at hbase hcap
    exact ⟨hbase, hcap⟩

/-- Settles O50: the ring holds no records at cursor 0, and every record keeps it in step. -/
theorem ringHoldsTheMostRecentRecords : Obligations.RingHoldsTheMostRecentRecords := by
  intro i m ts hcur hcap _
  obtain ⟨hcursor, hrecent⟩ := (ringHolds_nil hcur m).rxRun hcap ts
  obtain ⟨hbase, hcapacity⟩ := rxRun_rxBase_rxCap (i, m) ts
  rw [hcapacity] at hcursor hrecent
  rw [hbase] at hrecent
  exact ⟨hcursor, hrecent⟩

/-! ### R193: loopback -/

/-- Where one level is no edge, the other is. -/
theorem edgeSeen_of_ne {a b : Level} (hquiet : edgeSeen i a = false) (hne : b ≠ a) : edgeSeen i b = true := by
  rw [edgeSeen_eq_false_iff] at hquiet
  rw [edgeSeen_iff]
  have hlevels : ∀ a b : Level, b ≠ a → (b = 1 ↔ ¬ a = 1) := by decide
  rw [hlevels a b hne]
  tauto

/-- Settles O51: the sample taken before the edge is none, and the next one, at the new level, is one. -/
theorem loopbackEdgeIsRecordedAtTheNextIteration : Obligations.LoopbackEdgeIsRecordedAtTheNextIteration := by
  intro m t t' idle i hparity hedge
  have hquiet : edgeSeen i (i.txLevel.getD idle) = false := by
    have hexclusive : ∀ a : Level, ¬ (a = 0 ↔ a = 1) := by decide
    rw [edgeSeen_eq_false_iff, hparity]
    exact hexclusive _
  have hseen : edgeSeen i (pinSample (txStep m t i) (.loopback idle)) = true := edgeSeen_of_ne hquiet hedge
  have hfirst : iteration t (pinSample i (.loopback idle)) i m = (txStep m t i, m) :=
    rxStep_of_no_edge (by rwa [edgeSeen_txStep]) t m
  have hnext : iteration t' (pinSample (txStep m t i) (.loopback idle)) (txStep m t i) m = _ :=
    rxStep_of_edge (by rwa [edgeSeen_txStep, edgeSeen_txStep]) t' m
  refine ⟨txStep m t i, hfirst, txStep_rxCur .., txStep_rxLast .., ?_⟩
  rw [hnext]
  simp [rxCurNext]

end Sys2Proof.Machine
end

/-! ## Lifecycle and the run loop

CREATE has an equation for each of its outcomes (`createCommand_of_mapped` and its like; 43_lifecycle.md R210), and ENABLE and
DISABLE are controls (`control_meaning`; R220, R222). The loop step has an equation for each of its branches (R230, R231). It
puts back one record and writes one word of SHM at most (`loopStep_eq`), and its TX step commutes with a record of its RX step
(`txStep_rxAdvance`; R232). -/

section
namespace Sys2Proof.Machine

variable {h : Byte} {g : Nat} {s : State} {i : Instance} {m : Memory} {x c : Word} {tx rx d : Descriptor}

/-! ### R210: CREATE -/

theorem encodesAs_create : EncodesAs 0x01 (fun x => x.h == 0) (fun x => .create x.p0 x.p1 x.a x.b x.c) := by
  refine encodesAs_of_fields (fun x hop => reservedZero_of_create hop) fun x hop hx => ?_
  simpa [instrFields, fields_eq_iff, hop] using hx

theorem mapsTo_iff : MapsTo s x d ↔ validBuffer s x = some d := validBuffer_eq_some.symm

theorem validBuffer_eq_none_iff : validBuffer s x = none ↔ ∀ d, ¬ MapsTo s x d := by
  simp only [Option.eq_none_iff_forall_ne_some, mapsTo_iff, ne_eq]

/-- The three ways an `rx_capacity` fails its check: zero, odd, above the buffer's length (R256). -/
theorem rxCapacityOk_eq_false_iff {length : Word} :
    rxCapacityOk c length = false ↔ c = 0 ∨ c.toNat % 2 = 1 ∨ length < c := by
  rw [← Bool.not_eq_true, rxCapacityOk_iff, not_and_or, not_and_or, not_not, Nat.mod_two_not_eq_zero, BitVec.not_le]

/-- CLOCK_START draws the counter where the clock has not started, and leaves the clock started (R121). -/
theorem clockStart_eq (s : State) :
    clockStart s = { s with clk := if s.clkStarted then s.clk else Config.clkEpoch, clkStarted := true } := by
  rw [clockStart_frame, clockStart_clk, clockStart_clkStarted]

theorem createCommand_of_full (hn : s.nInst = Config.maxInstances) (p q : Byte) (a b c : Word) :
    createCommand p q a b c s = raise .capacityExhausted s := if_pos hn

theorem createCommand_of_unmapped {a b : Word} (hn : s.nInst ≠ Config.maxInstances)
    (hbuf : validBuffer s a = none ∨ validBuffer s b = none) (p q : Byte) (c : Word) :
    createCommand p q a b c s = raise .badBuffer s := by
  rw [createCommand, if_neg hn]
  obtain ha | hb := hbuf
  · rw [ha]
  · cases ha : validBuffer s a with
    | none => rfl
    | some tx => simp only [hb]

/-- With room and both buffers mapped, the capacity alone decides (R259). -/
theorem createCommand_of_mapped {a b : Word} (hn : s.nInst ≠ Config.maxInstances) (ha : validBuffer s a = some tx)
    (hb : validBuffer s b = some rx) (p q : Byte) (c : Word) : createCommand p q a b c s =
      if rxCapacityOk c rx.length then
        respond .ok (BitVec.ofNat 32 s.nInst) (clockStart (addInstance (newInstance s.nInst p q tx rx c) s))
      else raise .rxCapacityInvalid s := by
  simp only [createCommand, if_neg hn, ha, hb]

theorem exec_create (p q : Byte) (a b c : Word) (s : State) :
    exec (.create p q a b c) s = .next (createCommand p q a b c s) := rfl

/-- Settles O10: its row of the opcode table, and the five ends of its rule. -/
theorem createMeaning : Obligations.CreateMeaning := by
  refine ⟨encodesAs_create, fun p q a b c s hn => ?_, fun p q a b c s hn hbuf => ?_,
    fun p q a b c s tx rx hn ha hb hc => ?_, fun p q a b c s tx rx hn ha hb hpos heven hle => ?_⟩ <;>
  rw [exec_create]
  · rw [createCommand_of_full hn, raise_capacityExhausted]
  · rw [createCommand_of_unmapped hn (hbuf.imp validBuffer_eq_none_iff.mpr validBuffer_eq_none_iff.mpr),
      raise_eq_of_ne (by decide)]
  · rw [createCommand_of_mapped hn (mapsTo_iff.mp ha) (mapsTo_iff.mp hb), rxCapacityOk_eq_false_iff.mpr hc,
      raise_eq_of_ne (by decide)]
    rfl
  · rw [createCommand_of_mapped hn (mapsTo_iff.mp ha) (mapsTo_iff.mp hb),
      if_pos (rxCapacityOk_iff.mpr ⟨hpos, heven, hle⟩), clockStart_eq]
    rfl

/-! ### R220 to R224: ENABLE, DISABLE and ENABLED -/

/-- A control's rule: its row of the opcode table, BAD_HANDLE, and the record put back with `w` applied to it. -/
theorem control_meaning {op : Byte} {mk : Byte → Instr} {w : Instance → Instance} (h₁ : op ≠ 1) (h₅ : op ≠ 5)
    (hmk : ∀ h, instrFields (mk h) = ⟨op, h, 0, 0, 0, 0, 0⟩) (hexec : ∀ h s, exec (mk h) s = .next (control h w s)) :
    EncodesAs op onlyH (fun x => mk x.h) ∧ AnswersBadHandle mk ∧
      ∀ (h : Byte) (s : State) (i : Instance), s.insts[h.toNat]? = some i →
        exec (mk h) s = .next { s with insts := s.insts.set h.toNat (w i), response := some ⟨.ok, 0⟩ } := by
  refine ⟨encodesAs_handleOnly h₁ h₅ hmk, answersBadHandle_of_withInstance hexec, fun h s i hi => ?_⟩
  rw [hexec, control_of_some hi]
  rfl

/-- Settles O11: ENABLE is the control that applies `startLoop`. -/
theorem enableMeaning : Obligations.EnableMeaning :=
  control_meaning (by decide) (by decide) (fun _ => rfl) exec_enable

/-- Settles O12: DISABLE is the control that applies `requestStop`. -/
theorem disableMeaning : Obligations.DisableMeaning :=
  control_meaning (by decide) (by decide) (fun _ => rfl) exec_disable

/-- Settles O13: its row of the opcode table, and the flag answered. -/
theorem enabledMeaning : Obligations.EnabledMeaning := by
  refine ⟨encodesAs_handleOnly (by decide) (by decide) fun _ => rfl,
    answersBadHandle_of_withInstance fun _ _ => rfl, fun h s i hi => ?_⟩
  exact congrArg _ (withInstance_some _ hi)

/-! ### R230, R231: the branches of the loop step -/

theorem perform_iter (g : Nat) (input : RxInput) (s : State) : perform (.iter g input) s = .next (loopStep g input s) := rfl

theorem loopStep_of_inactive (hidle : ∀ i, s.insts[g]? = some i → i.loopActive = false) (input : RxInput) :
    loopStep g input s = s := by
  obtain ⟨hs, -⟩ | ⟨i, hi, hactive, -⟩ := loopStep_cases (s := s) g input
  · exact hs
  · exact absurd ((hidle i hi).symm.trans hactive) Bool.false_ne_true

theorem loopStep_of_stopped (hi : s.insts[g]? = some i) (hactive : i.loopActive = true) (hstopped : i.running = false)
    (input : RxInput) : loopStep g input s = s.setInst g (loopExit i) := by
  simp [loopStep, hi, hactive, hstopped]

theorem loopStep_of_running (hi : s.insts[g]? = some i) (hactive : i.loopActive = true) (hrunning : i.running = true)
    (input : RxInput) :
    loopStep g input s = storeIteration g (iteration s.clk (pinSample i input) i s.shm) s := by
  simp [loopStep, hi, hactive, hrunning, clockRead]

/-- Settles O53: no branch of the loop step is taken. -/
theorem inactiveLoopTakesNoStep : Obligations.InactiveLoopTakesNoStep := by
  intro g input s hidle
  rw [perform_iter, loopStep_of_inactive hidle]

/-- Settles O52: the two branches of an active loop, the level being what the environment's input gives (R29). -/
theorem loopStepMeaning : Obligations.LoopStepMeaning := by
  refine ⟨fun g input s i hi hactive hstopped => ?_, fun g input s i lvl hi hactive hrunning hinput => ?_⟩
  · rw [perform_iter, loopStep_of_stopped hi hactive hstopped]
    rfl
  · have hlvl : pinSample i input = lvl := by
      obtain rfl | ⟨idle, rfl, rfl⟩ := hinput <;> rfl
    rw [perform_iter, loopStep_of_running hi hactive hrunning, hlvl]
    rfl

/-! ### R223, R235: DISABLE, and the loop's next step -/

/-- Settles O57: DISABLE leaves the loop active and stopped, so its next step is the exit branch. -/
theorem disableEndsTheLoopAtItsNextStep : Obligations.DisableEndsTheLoopAtItsNextStep := by
  intro h input s i hi hactive
  have hi' : (respond .ok 0 (s.setInst h.toNat (requestStop i))).insts[h.toNat]? = some (requestStop i) :=
    List.getElem?_set_self (inst_lt hi)
  refine ⟨_, exec_disable h s, ?_⟩
  rw [control_of_some hi, perform_iter, loopStep_of_stopped hi' hactive (requestStop_running i)]
  rfl

/-- ENABLE undoes DISABLE on a record whose loop is running. -/
theorem startLoop_requestStop (hactive : i.loopActive = true) (hrunning : i.running = true) :
    startLoop (requestStop i) = i := by
  cases i
  simp_all [startLoop, requestStop]

/-- Two controls of one handle put back the record with both rewritings. -/
theorem control_control_of_some (hi : s.insts[h.toNat]? = some i) (v w : Instance → Instance) :
    control h w (control h v s) = respond .ok 0 (s.setInst h.toNat (w (v i))) := by
  have hi' : (respond .ok 0 (s.setInst h.toNat (v i))).insts[h.toNat]? = some (v i) :=
    List.getElem?_set_self (inst_lt hi)
  rw [control_of_some hi, control_of_some hi']
  simp [respond, State.setInst]

theorem setInst_self (hi : s.insts[g]? = some i) : s.setInst g i = s := by
  obtain ⟨hlt, rfl⟩ := List.getElem?_eq_some_iff.mp hi
  rw [State.setInst, List.set_getElem_self]

/-- Settles O58: the two rewritings give the record that stood there. -/
theorem enableBeforeTheExitKeepsTheLoop : Obligations.EnableBeforeTheExitKeepsTheLoop := by
  intro h s i hi hrunning hactive
  refine ⟨_, exec_disable h s, ?_⟩
  rw [exec_enable, control_control_of_some hi, startLoop_requestStop hactive hrunning, setInst_self hi]
  rfl

/-! ### R232, R236: what a loop step leaves alone -/

/-- A loop step writes no constant of its record, no length and no running flag. -/
theorem loopRecord_frame (t : Word) (input : RxInput) (i : Instance) (m : Memory) : loopRecord t input i m = { i with
    txCur := (loopRecord t input i m).txCur, txTarget := (loopRecord t input i m).txTarget
    txGuard := (loopRecord t input i m).txGuard, txLevel := (loopRecord t input i m).txLevel
    rxCur := (loopRecord t input i m).rxCur, rxLast := (loopRecord t input i m).rxLast
    loopActive := (loopRecord t input i m).loopActive } := by
  unfold loopRecord
  split
  · split
    · rw [iteration, rxStep_frame, txStep_frame]
    · rfl
  · rfl

/-- A running instance's loop stays as active as it is: only the exit clears the flag (R231). -/
theorem loopRecord_loopActive_of_running (hrunning : i.running = true) (t : Word) (input : RxInput) (m : Memory) :
    (loopRecord t input i m).loopActive = i.loopActive := by
  cases hactive : i.loopActive with
  | false => simp [loopRecord, hactive]
  | true =>
    rw [loopRecord_of_running hactive hrunning]
    simpa using hactive

theorem loopMemory_read_other {a : Word} (ha : a ≠ rxElemAddr i) (t : Word) (input : RxInput) (m : Memory) :
    (loopMemory t input i m).read a = m.read a := by
  unfold loopMemory
  split
  · exact read_write_other m _ ha
  · rfl

/-- Settles O54: a loop step puts back one record and one word of SHM at most, and the record keeps its constants. -/
theorem loopStepTouchesOnlyItsInstance : Obligations.LoopStepTouchesOnlyItsInstance := by
  rintro g input s _ i j hi ⟨⟩ hj
  obtain rfl : loopRecord s.clk input i s.shm = j :=
    Option.some.inj ((loopStep_getElem?_self hi input).symm.trans hj)
  rw [loopStep_eq input hi]
  exact ⟨rfl, by simp [State.nInst], fun k hk => List.getElem?_set_ne hk.symm,
    fun a ha => loopMemory_read_other ha s.clk input s.shm, loopRecord_frame s.clk input i s.shm,
    fun hrunning => loopRecord_loopActive_of_running hrunning s.clk input s.shm⟩

/-! ### R232: the order of the two steps of an iteration -/

theorem txReady_rxAdvance (t u : Word) (i : Instance) : txReady t (rxAdvance u i) = rxAdvance u (txReady t i) := by
  by_cases hcur : i.txCur = 0
  · rw [txReady_armed t hcur, txReady_armed t (i := rxAdvance u i) hcur]
    rfl
  · rw [txReady_pending t hcur, txReady_pending t (i := rxAdvance u i) hcur, txReady_txGuard hcur,
      txReady_txGuard (i := rxAdvance u i) hcur]
    rfl

theorem txFire_rxAdvance (m : Memory) (u : Word) (i : Instance) :
    txFire m (rxAdvance u i) = rxAdvance u (txFire m i) := by
  rw [txFire_eq, txFire_eq]
  rfl

/-- A TX step neither reads nor writes what a record of the RX step writes to the instance (R232). -/
theorem txStep_rxAdvance (m : Memory) (t u : Word) (i : Instance) :
    txStep m t (rxAdvance u i) = rxAdvance u (txStep m t i) := by
  obtain ⟨hidle, hs⟩ | ⟨hbusy, hdue, hs⟩ | ⟨hbusy, hdue, hs⟩ := txStep_cases m t i <;> rw [hs]
  · exact txStep_of_idle hidle
  · have hdue' : txDue t (txReady t (rxAdvance u i)) = true := by rwa [txReady_rxAdvance]
    rw [txStep_of_due (i := rxAdvance u i) hbusy hdue', txReady_rxAdvance, txFire_rxAdvance]
  · have hdue' : txDue t (txReady t (rxAdvance u i)) = false := by rwa [txReady_rxAdvance]
    rw [txStep_of_not_due (i := rxAdvance u i) hbusy hdue', txReady_rxAdvance]

/-- Settles O55: an RX step writes no field that the TX step reads, and, where the elements differ, no word that it reads. -/
theorem txAndRxStepsCommute : Obligations.TxAndRxStepsCommute := by
  intro m t lvl i happart
  have hedge' : edgeSeen (txStep m t i) lvl = edgeSeen i lvl := edgeSeen_txStep m t i lvl
  cases hedge : edgeSeen i lvl with
  | false => rw [rxStep_of_no_edge hedge, iteration, rxStep_of_no_edge (hedge'.trans hedge)]
  | true =>
    have hread : m.read (txElemAddr i) = (m.write (rxElemAddr i) (t - i.rxLast)).read (txElemAddr i) :=
      (read_write_other m _ happart.symm).symm
    rw [rxStep_of_edge hedge, iteration, rxStep_of_edge (hedge'.trans hedge), txStep_rxAdvance, rxElemAddr_txStep,
      txStep_rxLast, txStep_congr_memory t fun _ => hread]

end Sys2Proof.Machine
end

/-! ## Errors and the fatal flag

A command ends well, with the fatal flag as it was, or in a raised error (`CommandEnd`; 60_exceptions.md R250, R251), and of the errors
only CAPACITY_EXHAUSTED writes more than the response. No step that is no command writes the flag, so `FatalEffect` says what
any step can do to it (R257). -/

section
namespace Sys2Proof.Machine

variable {e : Event} {s t : State} {f : Frame}

/-! ### R251, R252: how a command ends -/

/-- Settles O8: the decoder has no command for such a frame, and the error raised for it is not the fatal one. -/
theorem illegalFrameIsAnsweredAndWritesNothing : Obligations.IllegalFrameIsAnsweredAndWritesNothing :=
  fun _ s hx => performCommand_of_not_wellFormed hx s

/-- How the command of event e ends: in success, or in an error, which is the fatal one only for a CREATE with no room (R257). -/
inductive CommandEnd (e : Event) (s t : State) : Prop
  | success (v : Word) (answer : t.response = some ⟨.ok, v⟩) (fatal : t.fatal = s.fatal)
  | error (r : Status) (raised : t = raise r s)
      (cause : r = .capacityExhausted → s.nInst = Config.maxInstances ∧ IsCreate e)

theorem respond_ok_commandEnd (v : Word) (hfatal : t.fatal = s.fatal) : CommandEnd e s (respond .ok v t) :=
  .success v rfl hfatal

theorem raise_commandEnd {r : Status} (hr : r ≠ .capacityExhausted) : CommandEnd e s (raise r s) :=
  .error r rfl fun h => absurd h hr

theorem withInstance_commandEnd (h : Byte) {act : Instance → State} (hact : ∀ i, CommandEnd e s (act i)) :
    CommandEnd e s (withInstance h s act) := by
  obtain ⟨-, hw⟩ | ⟨i, -, hw⟩ := withInstance_cases (s := s) h act
  · exact hw ▸ raise_commandEnd (by decide)
  · exact hw ▸ hact i

theorem createCommand_commandEnd (he : IsCreate e) (p q : Byte) (a b c : Word) :
    CommandEnd e s (createCommand p q a b c s) := by
  obtain ⟨hfull, h⟩ | ⟨-, -, h⟩ | ⟨tx, rx, -, -, -, ⟨-, h⟩ | ⟨-, h⟩⟩ :=
    createCommand_cases (s := s) p q a b c <;> rw [h]
  · exact .error _ rfl fun _ => ⟨hfull, he⟩
  · exact raise_commandEnd (by decide)
  · exact raise_commandEnd (by decide)
  · exact respond_ok_commandEnd _ (by simp)

theorem exec_commandEnd {c : Instr} (hf : decode f = some c) (ht : exec c s = .next t) :
    CommandEnd (.command f) s t := by
  cases c <;> cases ht
  case create p q a b n => exact createCommand_commandEnd ⟨f, p, q, a, b, n, rfl, hf⟩ p q a b n
  case txStart g n =>
    refine withInstance_commandEnd g fun i => ?_
    split
    · exact raise_commandEnd (by decide)
    · exact respond_ok_commandEnd _ rfl
  all_goals exact withInstance_commandEnd _ fun i => respond_ok_commandEnd _ rfl

theorem performCommand_commandEnd (ht : performCommand f s = .next t) : CommandEnd (.command f) s t := by
  unfold performCommand at ht
  split at ht
  next c hc => exact exec_commandEnd hc ht
  next => cases ht; exact raise_commandEnd (by decide)

/-- An error writes its response, and the fatal flag where it is CAPACITY_EXHAUSTED (R251). -/
theorem raise_eq (r : Status) (s : State) :
    raise r s = { s with response := some ⟨r, 0⟩, fatal := s.fatal || r == .capacityExhausted } := by
  by_cases hr : r = .capacityExhausted
  · rw [hr, raise_capacityExhausted, beq_self_eq_true, Bool.or_true]
  · rw [raise_eq_of_ne hr, beq_eq_false_iff_ne.mpr hr, Bool.or_false]

/-- Settles O19: a command that does not succeed ends in a raised error. -/
theorem failedCommandWritesNothing : Obligations.FailedCommandWritesNothing := by
  intro f s t r ht hresponse hfailed
  cases performCommand_commandEnd ht with
  | success v answer =>
    obtain rfl : ⟨.ok, v⟩ = r := Option.some.inj (answer.symm.trans hresponse)
    exact absurd rfl hfailed
  | error e raised =>
    rw [raised, raise_response] at hresponse
    obtain rfl : ⟨e, 0⟩ = r := Option.some.inj hresponse
    exact ⟨rfl, raised.trans (raise_eq e s)⟩

/-! ### R257: the fatal flag -/

/-- What event e can do to the fatal flag: nothing, or set it where a CREATE finds no room, which makes no instance. -/
def FatalEffect (e : Event) (s t : State) : Prop :=
  t.fatal = s.fatal ∨ t.fatal = true ∧ s.nInst = Config.maxInstances ∧ t.nInst = s.nInst ∧ IsCreate e

theorem CommandEnd.fatalEffect (hend : CommandEnd e s t) : FatalEffect e s t := by
  cases hend with
  | success v answer fatal => exact .inl fatal
  | error r raised cause =>
    subst raised
    by_cases hr : r = .capacityExhausted
    · obtain ⟨hfull, hcreate⟩ := cause hr
      exact .inr ⟨by rw [hr, raise_capacityExhausted], hfull, by simp [State.nInst], hcreate⟩
    · exact .inl (by rw [raise_eq_of_ne hr])

theorem loopStep_fatal (g : Nat) (input : RxInput) (s : State) : (loopStep g input s).fatal = s.fatal := by
  obtain ⟨hs, -⟩ | ⟨i, -, -, ⟨-, hs⟩ | ⟨-, hs⟩⟩ := loopStep_cases (s := s) g input <;> simp [hs]

theorem perform_fatalEffect (ht : perform e s = .next t) : FatalEffect e s t := by
  cases e with
  | command f => exact (performCommand_commandEnd ht).fatalEffect
  | tick => cases ht; exact .inl (clockTick_fatal s)
  | iter g input => cases ht; exact .inl (loopStep_fatal g input s)
  | poke a v => cases ht; exact .inl rfl
  | describe handle d => cases ht; exact .inl rfl

/-- Taking the event off the order of steps writes neither the flag nor a record. -/
theorem step_fatalEffect (ht : step s = .next t) : FatalEffect (nextEvent s) s t := by
  simpa [FatalEffect] using perform_fatalEffect ht

/-- Settles O31: a step keeps the flag, or is a CREATE that finds no room and sets it. -/
theorem fatalIsStickyAndOnlyCreateSetsIt : Obligations.FatalIsStickyAndOnlyCreateSetsIt := by
  intro s t ht
  obtain hkept | ⟨hset, hfull, hcount, hcreate⟩ := step_fatalEffect ht
  · exact ⟨hkept.trans, fun hs hset => absurd (hs.symm.trans (hkept.symm.trans hset)) Bool.false_ne_true⟩
  · exact ⟨fun _ => hset, fun _ _ => ⟨hfull, hcount, hcreate⟩⟩

end Sys2Proof.Machine
end

/-! ## Power-on

`State.reset` lists no record and no word of SHM, so every handle is free and every read falls to SHM0 (`read_nil`;
70_reset_and_hazards.md R290). -/

section
namespace Sys2Proof.Machine

/-- Settles O24: the fields are those of `State.reset`, and an address that SHM does not list reads as SHM0. -/
theorem powerOnState : Obligations.PowerOnState := by
  have noRecord : ∀ h : Nat, State.reset.insts[h]? = none := fun _ => List.getElem?_nil
  have readsShm0 : ∀ a : Word, State.reset.shm.read a = Config.shm0 a := read_nil
  exact ⟨rfl, rfl, rfl, noRecord, readsShm0, rfl⟩

end Sys2Proof.Machine
end
